-- ==== Sys2Proof/Word.lean ====
section
/-! DEFINITION. The two data widths of the machine: bytes and 16-bit words (R7, R8, R73). -/

namespace Sys2Proof

/-- One byte of memory, one byte register half, one byte of an instruction. -/
abbrev Byte := BitVec 8

/-- One 16-bit word: a general or segment register, PC, an offset, a word operand. -/
abbrev Word := BitVec 16

/-- The byte/word field `W` of an instruction (R73). -/
inductive Width where
  | byte
  | word
deriving DecidableEq, Repr

/-- The number of bits `N` an operation of this width works on (R73). -/
abbrev Width.bits : Width → Nat
  | .byte => 8
  | .word => 16

/-- The number of bytes `d = N / 8` an operation of this width moves (R140). -/
def Width.bytes : Width → Nat
  | .byte => 1
  | .word => 2

end Sys2Proof
end

