-- ==== Sys2Proof/Machine/Bits.lean ====
section
/-! DEFINITION. Halves of a word, byte order and sign extension (R8, R42, R76). -/

namespace Sys2Proof

/-- `v[7:0]`, the low-order byte: the byte at the lower address (R42). -/
def lowByte (v : Word) : Byte := v.extractLsb' 0 8

/-- `v[15:8]`, the high-order byte: the byte at the higher address (R42). -/
def highByte (v : Word) : Byte := v.extractLsb' 8 8

/-- The word whose low-order byte is `lo` and whose high-order byte is `hi` (R42). -/
def joinBytes (lo hi : Byte) : Word := hi.setWidth 16 <<< 8 ||| lo.setWidth 16

/-- `sext_16`: an 8-bit displacement or immediate sign-extended to 16 bits (R76, R78). -/
def sext16 (b : Byte) : Word := b.signExtend 16

/-- `zext_16`: a byte zero-extended to 16 bits (R124, R165). -/
def zext16 (b : Byte) : Word := b.setWidth 16

end Sys2Proof
end

