-- ==== Sys2Proof/Config.lean ====
section
/-! DEFINITION. What an implementation or the platform fixes and the spec leaves open (section 1 of
92_eei_decisions.md), and the free values that stand for undefined results (section 1 of 93_implementation_defined.md).
A constant without a body can be evaluated by nothing, so a claim holds whatever its value is. -/

namespace Sys2Proof

/-- The value of the `n`-th undefined bit drawn since reset: a flag marked U (R30, U1, U9). -/
opaque Config.freeBit : Nat → Bool

/-- The value of the `n`-th undefined byte drawn since reset (U5, U6, U8). -/
opaque Config.freeByte : Nat → Byte

/-- The value of the `n`-th undefined word drawn since reset (U5). -/
opaque Config.freeWord : Nat → Word

/-- `xa_translate`: the physical address of a 20-bit logical address in the extended address mode (R386, D16). -/
opaque Config.xaTranslate : BitVec 20 → Nat

/-- `word_wrap_in_segment`: the second byte of a word at offset FFFFH is at offset 0000H of the same segment, not at
the next physical address (R41, D5). -/
opaque Config.wordWrapInSegment : Bool

/-- `queue_depth`: how many bytes after an instruction may already be prefetched when it stores (R60, D8). -/
opaque Config.queueDepth : Nat

/-- What the platform answers to the `n`-th unanswered I/O read, made at a port (R50): the low-order byte answers a
byte access. -/
opaque Config.ioAnswer : Nat → Word → Word

end Sys2Proof
end

