-- ==== Sys2Proof/Syntax.lean ====
section
/-! DEFINITION. The instructions of the 16-bit V series, native mode and the two emulation-mode control
instructions: one constructor of `Instr` for each row of spec/opcode_table.json, in its order (R70 to R101). -/

namespace Sys2Proof

/-- The model class (R2): `emu` for V20, V30, V20HL, V30HL, V40, V50, V40HL, V50HL, `xa` for V33A, V53A. -/
inductive Cls where
  | emu
  | xa
deriving DecidableEq, Repr

/-- Which code map a byte sequence is read by: the native map of either class (R88), or the emulation-mode map
that `cls = EMU` uses while MD = 0 (R96, R97). -/
inductive CodeMap where
  | emuNative
  | xaNative
  | emulation
deriving DecidableEq, Repr

/-- The 3-bit register field, named by its 16-bit register, in the order of its codes 000 to 111 (R7). With W = 0
the same eight codes name AL, CL, DL, BL, AH, CH, DH, BH (R8). -/
inductive Reg where
  | aw | cw | dw | bw | sp | bp | ix | iy
deriving DecidableEq, Repr

/-- The 2-bit segment register field in the order of its codes 00 to 11 (R12, R75). -/
inductive SReg where
  | ds1 | ps | ss | ds0
deriving DecidableEq, Repr

/-- The segment registers an instruction may load by itself: all but PS (R116, R340). -/
inductive DataSReg where
  | ds1 | ss | ds0
deriving DecidableEq, Repr

/-- The address registers that `mem` names (R76), in the order of its codes 000 to 111. -/
inductive Base where
  | bwIx | bwIy | bpIx | bpIy | ix | iy | bp | bw
deriving DecidableEq, Repr

/-- A memory operand: the `mod`/`mem` forms with `mod` 00, 01, 10 (R76). -/
inductive MemArg where
  /-- `mod = 00`, `mem = 110`: a direct address. -/
  | direct (addr : Word)
  /-- `mod = 00`: registers only (`mem = 110` is the direct address, so `bp` is not well-formed here). -/
  | based (base : Base)
  /-- `mod = 01`: registers plus a sign-extended 8-bit displacement. -/
  | disp8 (base : Base) (disp : Byte)
  /-- `mod = 10`: registers plus a 16-bit displacement. -/
  | disp16 (base : Base) (disp : Word)
deriving DecidableEq, Repr

/-- An operand that is a register (`mod = 11`) or memory (R76). -/
inductive RM where
  | reg (r : Reg)
  | mem (m : MemArg)
deriving DecidableEq, Repr

/-- Immediate data of the op codes without an s bit: 8 bits when W = 0, 16 bits when W = 1 (R78). -/
inductive Imm where
  | byte (v : Byte)
  | word (v : Word)
deriving DecidableEq, Repr

/-- Immediate data of the op codes `1000 00sW`, one form for each of 80H to 83H (R78). -/
inductive ImmS where
  /-- 80H: s = 0, W = 0. -/
  | byte80 (v : Byte)
  /-- 81H: s = 0, W = 1, two immediate bytes. -/
  | word81 (v : Word)
  /-- 82H: s = 1, W = 0; it behaves as 80H. -/
  | byte82 (v : Byte)
  /-- 83H: s = 1, W = 1, one immediate byte, sign-extended to 16 bits. -/
  | sext83 (v : Byte)
deriving DecidableEq, Repr

/-- One constructor for each row of the opcode table. Where a row has a register-or-memory operand with a `reg`
field, the arguments stand in the order destination, source. -/
inductive Instr where
  /-- ADD mem, reg (mod=11: reg', reg alias): `0000000W MMRRREEE` (R181). -/
  | addRmReg (w : Width) (dst : RM) (src : Reg)
  /-- ADD reg, mem / reg, reg': `0000001W MMRRREEE` (R181). -/
  | addRegRm (w : Width) (dst : Reg) (src : RM)
  /-- ADD acc, imm: `0000010W` (R181). -/
  | addAccImm (imm : Imm)
  /-- ADD reg/mem, imm: `100000sW MM000EEE` (R181). -/
  | addRmImm (dst : RM) (imm : ImmS)
  /-- OR mem, reg (mod=11: reg', reg alias): `0000100W MMRRREEE` (R252). -/
  | orRmReg (w : Width) (dst : RM) (src : Reg)
  /-- OR reg, mem / reg, reg': `0000101W MMRRREEE` (R252). -/
  | orRegRm (w : Width) (dst : Reg) (src : RM)
  /-- OR acc, imm: `0000110W` (R252). -/
  | orAccImm (imm : Imm)
  /-- OR reg/mem, imm: `100000sW MM001EEE` (R252). -/
  | orRmImm (dst : RM) (imm : ImmS)
  /-- ADDC mem, reg (mod=11: reg', reg alias): `0001000W MMRRREEE` (R182). -/
  | addcRmReg (w : Width) (dst : RM) (src : Reg)
  /-- ADDC reg, mem / reg, reg': `0001001W MMRRREEE` (R182). -/
  | addcRegRm (w : Width) (dst : Reg) (src : RM)
  /-- ADDC acc, imm: `0001010W` (R182). -/
  | addcAccImm (imm : Imm)
  /-- ADDC reg/mem, imm: `100000sW MM010EEE` (R182). -/
  | addcRmImm (dst : RM) (imm : ImmS)
  /-- SUBC mem, reg (mod=11: reg', reg alias): `0001100W MMRRREEE` (R184). -/
  | subcRmReg (w : Width) (dst : RM) (src : Reg)
  /-- SUBC reg, mem / reg, reg': `0001101W MMRRREEE` (R184). -/
  | subcRegRm (w : Width) (dst : Reg) (src : RM)
  /-- SUBC acc, imm: `0001110W` (R184). -/
  | subcAccImm (imm : Imm)
  /-- SUBC reg/mem, imm: `100000sW MM011EEE` (R184). -/
  | subcRmImm (dst : RM) (imm : ImmS)
  /-- AND mem, reg (mod=11: reg', reg alias): `0010000W MMRRREEE` (R251). -/
  | andRmReg (w : Width) (dst : RM) (src : Reg)
  /-- AND reg, mem / reg, reg': `0010001W MMRRREEE` (R251). -/
  | andRegRm (w : Width) (dst : Reg) (src : RM)
  /-- AND acc, imm: `0010010W` (R251). -/
  | andAccImm (imm : Imm)
  /-- AND reg/mem, imm: `100000sW MM100EEE` (R251). -/
  | andRmImm (dst : RM) (imm : ImmS)
  /-- SUB mem, reg (mod=11: reg', reg alias): `0010100W MMRRREEE` (R183). -/
  | subRmReg (w : Width) (dst : RM) (src : Reg)
  /-- SUB reg, mem / reg, reg': `0010101W MMRRREEE` (R183). -/
  | subRegRm (w : Width) (dst : Reg) (src : RM)
  /-- SUB acc, imm: `0010110W` (R183). -/
  | subAccImm (imm : Imm)
  /-- SUB reg/mem, imm: `100000sW MM101EEE` (R183). -/
  | subRmImm (dst : RM) (imm : ImmS)
  /-- XOR mem, reg (mod=11: reg', reg alias): `0011000W MMRRREEE` (R253). -/
  | xorRmReg (w : Width) (dst : RM) (src : Reg)
  /-- XOR reg, mem / reg, reg': `0011001W MMRRREEE` (R253). -/
  | xorRegRm (w : Width) (dst : Reg) (src : RM)
  /-- XOR acc, imm: `0011010W` (R253). -/
  | xorAccImm (imm : Imm)
  /-- XOR reg/mem, imm: `100000sW MM110EEE` (R253). -/
  | xorRmImm (dst : RM) (imm : ImmS)
  /-- CMP mem, reg (mod=11: reg', reg alias): `0011100W MMRRREEE` (R185). -/
  | cmpRmReg (w : Width) (dst : RM) (src : Reg)
  /-- CMP reg, mem / reg, reg': `0011101W MMRRREEE` (R185). -/
  | cmpRegRm (w : Width) (dst : Reg) (src : RM)
  /-- CMP acc, imm: `0011110W` (R185). -/
  | cmpAccImm (imm : Imm)
  /-- CMP reg/mem, imm: `100000sW MM111EEE` (R185). -/
  | cmpRmImm (dst : RM) (imm : ImmS)
  /-- TEST reg/mem, reg: `1000010W MMRRREEE` (R256). -/
  | testRmReg (w : Width) (dst : RM) (src : Reg)
  /-- TEST acc, imm: `1010100W` (R256). -/
  | testAccImm (imm : Imm)
  /-- TEST reg/mem, imm: `1111011W MM000EEE` (R256). -/
  | testRmImm (dst : RM) (imm : Imm)
  /-- NOT reg/mem: `1111011W MM010EEE` (R189). -/
  | notRm (w : Width) (dst : RM)
  /-- NEG reg/mem: `1111011W MM011EEE` (R188). -/
  | negRm (w : Width) (dst : RM)
  /-- MULU reg/mem: `1111011W MM100EEE` (R190). -/
  | muluRm (w : Width) (src : RM)
  /-- MUL reg/mem: `1111011W MM101EEE` (R191). -/
  | mulRm (w : Width) (src : RM)
  /-- DIVU reg/mem: `1111011W MM110EEE` (R202). -/
  | divuRm (w : Width) (src : RM)
  /-- DIV reg/mem: `1111011W MM111EEE` (R203). -/
  | divRm (w : Width) (src : RM)
  /-- MUL reg16, reg16'/mem16, imm16: `01101001 MMRRREEE` (R200). -/
  | mulRegRmImm16 (dst : Reg) (src : RM) (imm : Word)
  /-- MUL reg16, reg16'/mem16, imm8: `01101011 MMRRREEE` (R200). -/
  | mulRegRmImm8 (dst : Reg) (src : RM) (imm : Byte)
  /-- INC reg16: `01000RRR` (R186). -/
  | incReg (dst : Reg)
  /-- DEC reg16: `01001RRR` (R187). -/
  | decReg (dst : Reg)
  /-- INC reg8/mem8/mem16 (reg16 alias with W=1, mod=11): `1111111W MM000EEE` (R186). -/
  | incRm (w : Width) (dst : RM)
  /-- DEC reg8/mem8/mem16 (reg16 alias with W=1, mod=11): `1111111W MM001EEE` (R187). -/
  | decRm (w : Width) (dst : RM)
  /-- CALL regptr16: `11111111 11010EEE` (R302). -/
  | callRegptr (target : Reg)
  /-- CALL memptr16: `11111111 MM010EEE` (R303). -/
  | callMemptr16 (target : MemArg)
  /-- CALL memptr32: `11111111 MM011EEE` (R305). -/
  | callMemptr32 (target : MemArg)
  /-- BR regptr16: `11111111 11100EEE` (R312). -/
  | brRegptr (target : Reg)
  /-- BR memptr16: `11111111 MM100EEE` (R313). -/
  | brMemptr16 (target : MemArg)
  /-- BR memptr32: `11111111 MM101EEE` (R315). -/
  | brMemptr32 (target : MemArg)
  /-- PUSH mem16: `11111111 MM110EEE` (R292). -/
  | pushMem (src : MemArg)
  /-- PUSH reg16: `01010RRR` (R293). -/
  | pushReg (src : Reg)
  /-- POP reg16: `01011RRR` (R299). -/
  | popReg (dst : Reg)
  /-- PUSH sreg: `000SS110` (R294). -/
  | pushSreg (src : SReg)
  /-- POP sreg: `000SS111` (R340). -/
  | popSreg (dst : DataSReg)
  /-- PUSH PSW: `10011100` (R295). -/
  | pushPsw
  /-- POP PSW: `10011101` (R341). -/
  | popPsw
  /-- PUSH R: `01100000` (R297). -/
  | pushR
  /-- POP R: `01100001` (R342). -/
  | popR
  /-- PUSH imm16: `01101000` (R296). -/
  | pushImm16 (imm : Word)
  /-- PUSH imm8: `01101010` (R296). -/
  | pushImm8 (imm : Byte)
  /-- POP mem16: `10001111 MM000EEE` (R298). -/
  | popMem (dst : MemArg)
  /-- PREPARE imm16, imm8: `11001000` (R343). -/
  | prepare (size : Word) (level : Byte)
  /-- DISPOSE: `11001001` (R344). -/
  | dispose
  /-- DS1: prefix: `00100110` (R368). -/
  | segDs1
  /-- PS: prefix: `00101110` (R368). -/
  | segPs
  /-- SS: prefix: `00110110` (R368). -/
  | segSs
  /-- DS0: prefix: `00111110` (R368). -/
  | segDs0
  /-- ADJ4A: `00100111` (R230). -/
  | adj4a
  /-- ADJ4S: `00101111` (R231). -/
  | adj4s
  /-- ADJBA: `00110111` (R232). -/
  | adjba
  /-- ADJBS: `00111111` (R233). -/
  | adjbs
  /-- CHKIND reg16, mem32: `01100010 MMRRREEE` (R354). -/
  | chkind (index : Reg) (limits : MemArg)
  /-- REPNC prefix: `01100100` (R144). -/
  | repnc
  /-- REPC prefix: `01100101` (R143). -/
  | repc
  /-- FPO2 fp-op: `0110011X 11YYYZZZ` (R371). -/
  | fpo2Reg (x : BitVec 1) (y : BitVec 3) (z : BitVec 3)
  /-- FPO2 fp-op, mem: `0110011X MMYYYEEE` (R371). -/
  | fpo2Mem (x : BitVec 1) (y : BitVec 3) (mem : MemArg)
  /-- INM dst-block, DW: `0110110W` (R168). -/
  | inm (w : Width)
  /-- OUTM DW, src-block: `0110111W` (R169). -/
  | outm (w : Width)
  /-- BV short-label: `01110000` (R317). -/
  | bv (disp : Byte)
  /-- BNV short-label: `01110001` (R318). -/
  | bnv (disp : Byte)
  /-- BC_BL short-label: `01110010` (R319). -/
  | bc (disp : Byte)
  /-- BNC_BNL short-label: `01110011` (R320). -/
  | bnc (disp : Byte)
  /-- BE_BZ short-label: `01110100` (R321). -/
  | be (disp : Byte)
  /-- BNE_BNZ short-label: `01110101` (R322). -/
  | bne (disp : Byte)
  /-- BNH short-label: `01110110` (R323). -/
  | bnh (disp : Byte)
  /-- BH short-label: `01110111` (R324). -/
  | bh (disp : Byte)
  /-- BN short-label: `01111000` (R325). -/
  | bn (disp : Byte)
  /-- BP short-label: `01111001` (R326). -/
  | bp (disp : Byte)
  /-- BPE short-label: `01111010` (R327). -/
  | bpe (disp : Byte)
  /-- BPO short-label: `01111011` (R328). -/
  | bpo (disp : Byte)
  /-- BLT short-label: `01111100` (R329). -/
  | blt (disp : Byte)
  /-- BGE short-label: `01111101` (R330). -/
  | bge (disp : Byte)
  /-- BLE short-label: `01111110` (R331). -/
  | ble (disp : Byte)
  /-- BGT short-label: `01111111` (R332). -/
  | bgt (disp : Byte)
  /-- DBNZNE short-label: `11100000` (R336). -/
  | dbnzne (disp : Byte)
  /-- DBNZE short-label: `11100001` (R335). -/
  | dbnze (disp : Byte)
  /-- DBNZ short-label: `11100010` (R334). -/
  | dbnz (disp : Byte)
  /-- BCWZ short-label: `11100011` (R333). -/
  | bcwz (disp : Byte)
  /-- XCH reg, reg': `1000011W 11RRREEE` (R125). -/
  | xchRegReg (w : Width) (a : Reg) (b : Reg)
  /-- XCH mem, reg / reg, mem: `1000011W MMRRREEE` (R126). -/
  | xchMemReg (w : Width) (mem : MemArg) (reg : Reg)
  /-- MOV mem, reg (mod=11: alias of reg', reg): `1000100W MMRRREEE` (R112). -/
  | movRmReg (w : Width) (dst : RM) (src : Reg)
  /-- MOV reg, reg': `1000101W 11RRREEE` (R111). -/
  | movRegReg (w : Width) (dst : Reg) (src : Reg)
  /-- MOV reg, mem: `1000101W MMRRREEE` (R113). -/
  | movRegMem (w : Width) (dst : Reg) (src : MemArg)
  /-- MOV reg16/mem16, sreg: `10001100 MM0SSEEE` (R117). -/
  | movRmSreg (dst : RM) (src : SReg)
  /-- LDEA reg16, mem16: `10001101 MMRRREEE` (R123). -/
  | ldea (dst : Reg) (src : MemArg)
  /-- MOV sreg, reg16/mem16: `10001110 MM0SSEEE` (R116). -/
  | movSregRm (dst : DataSReg) (src : RM)
  /-- NOP: `10010000` (R369). -/
  | nop
  /-- XCH AW, reg16: `10010RRR` (R127). -/
  | xchAwReg (reg : Reg)
  /-- CVTBW: `10011000` (R246). -/
  | cvtbw
  /-- CVTWL: `10011001` (R247). -/
  | cvtwl
  /-- CALL far-proc: `10011010` (R304). -/
  | callFar (offset : Word) (segment : Word)
  /-- POLL: `10011011` (R364). -/
  | poll
  /-- MOV PSW, AH: `10011110` (R122). -/
  | movPswAh
  /-- MOV AH, PSW: `10011111` (R121). -/
  | movAhPsw
  /-- MOV acc, dmem: `1010000W` (R118). -/
  | movAccDmem (w : Width) (addr : Word)
  /-- MOV dmem, acc: `1010001W` (R119). -/
  | movDmemAcc (w : Width) (addr : Word)
  /-- MOVBK dst-block, src-block: `1010010W` (R146). -/
  | movbk (w : Width)
  /-- CMPBK src-block, dst-block: `1010011W` (R147). -/
  | cmpbk (w : Width)
  /-- STM dst-block: `1010101W` (R150). -/
  | stm (w : Width)
  /-- LDM src-block: `1010110W` (R149). -/
  | ldm (w : Width)
  /-- CMPM dst-block: `1010111W` (R148). -/
  | cmpm (w : Width)
  /-- MOV reg, imm: `1011WRRR` (R115). -/
  | movRegImm (dst : Reg) (imm : Imm)
  /-- ROL reg/mem, 1: `1101000W MM000EEE` (R279). -/
  | rolOne (w : Width) (dst : RM)
  /-- ROL reg/mem, CL: `1101001W MM000EEE` (R279). -/
  | rolCl (w : Width) (dst : RM)
  /-- ROL reg/mem, imm8: `1100000W MM000EEE` (R279). -/
  | rolImm (w : Width) (dst : RM) (count : Byte)
  /-- ROR reg/mem, 1: `1101000W MM001EEE` (R280). -/
  | rorOne (w : Width) (dst : RM)
  /-- ROR reg/mem, CL: `1101001W MM001EEE` (R280). -/
  | rorCl (w : Width) (dst : RM)
  /-- ROR reg/mem, imm8: `1100000W MM001EEE` (R280). -/
  | rorImm (w : Width) (dst : RM) (count : Byte)
  /-- ROLC reg/mem, 1: `1101000W MM010EEE` (R281). -/
  | rolcOne (w : Width) (dst : RM)
  /-- ROLC reg/mem, CL: `1101001W MM010EEE` (R281). -/
  | rolcCl (w : Width) (dst : RM)
  /-- ROLC reg/mem, imm8: `1100000W MM010EEE` (R281). -/
  | rolcImm (w : Width) (dst : RM) (count : Byte)
  /-- RORC reg/mem, 1: `1101000W MM011EEE` (R282). -/
  | rorcOne (w : Width) (dst : RM)
  /-- RORC reg/mem, CL: `1101001W MM011EEE` (R282). -/
  | rorcCl (w : Width) (dst : RM)
  /-- RORC reg/mem, imm8: `1100000W MM011EEE` (R282). -/
  | rorcImm (w : Width) (dst : RM) (count : Byte)
  /-- SHL reg/mem, 1: `1101000W MM100EEE` (R276). -/
  | shlOne (w : Width) (dst : RM)
  /-- SHL reg/mem, CL: `1101001W MM100EEE` (R276). -/
  | shlCl (w : Width) (dst : RM)
  /-- SHL reg/mem, imm8: `1100000W MM100EEE` (R276). -/
  | shlImm (w : Width) (dst : RM) (count : Byte)
  /-- SHR reg/mem, 1: `1101000W MM101EEE` (R277). -/
  | shrOne (w : Width) (dst : RM)
  /-- SHR reg/mem, CL: `1101001W MM101EEE` (R277). -/
  | shrCl (w : Width) (dst : RM)
  /-- SHR reg/mem, imm8: `1100000W MM101EEE` (R277). -/
  | shrImm (w : Width) (dst : RM) (count : Byte)
  /-- SHRA reg/mem, 1: `1101000W MM111EEE` (R278). -/
  | shraOne (w : Width) (dst : RM)
  /-- SHRA reg/mem, CL: `1101001W MM111EEE` (R278). -/
  | shraCl (w : Width) (dst : RM)
  /-- SHRA reg/mem, imm8: `1100000W MM111EEE` (R278). -/
  | shraImm (w : Width) (dst : RM) (count : Byte)
  /-- RET pop-value (within segment): `11000010` (R307). -/
  | retPop (value : Word)
  /-- RET (within segment): `11000011` (R306). -/
  | ret
  /-- MOV DS1, reg16, mem32: `11000100 MMRRREEE` (R120). -/
  | movDs1RegMem (dst : Reg) (src : MemArg)
  /-- MOV DS0, reg16, mem32: `11000101 MMRRREEE` (R120). -/
  | movDs0RegMem (dst : Reg) (src : MemArg)
  /-- MOV mem, imm: `1100011W MM000EEE` (R114). -/
  | movMemImm (dst : MemArg) (imm : Imm)
  /-- RET pop-value (between segments): `11001010` (R309). -/
  | retFarPop (value : Word)
  /-- RET (between segments): `11001011` (R308). -/
  | retFar
  /-- BRK 3: `11001100` (R351). -/
  | brk3
  /-- BRK imm8: `11001101` (R352). -/
  | brkImm (vector : Byte)
  /-- BRKV: `11001110` (R353). -/
  | brkv
  /-- RETI: `11001111` (R355). -/
  | reti
  /-- CVTBD: `11010100 00001010` (R244). -/
  | cvtbd
  /-- CVTDB: `11010101 00001010` (R245). -/
  | cvtdb
  /-- TRANS src-table: `11010111` (R124). -/
  | trans
  /-- FPO1 fp-op: `11011KKK 11YYYZZZ` (R370). -/
  | fpo1Reg (x : BitVec 3) (y : BitVec 3) (z : BitVec 3)
  /-- FPO1 fp-op, mem: `11011KKK MMYYYEEE` (R370). -/
  | fpo1Mem (x : BitVec 3) (y : BitVec 3) (mem : MemArg)
  /-- IN acc, imm8: `1110010W` (R166). -/
  | inAccImm (w : Width) (port : Byte)
  /-- OUT imm8, acc: `1110011W` (R170). -/
  | outImmAcc (w : Width) (port : Byte)
  /-- CALL near-proc: `11101000` (R301). -/
  | callNear (disp : Word)
  /-- BR near-label: `11101001` (R310). -/
  | brNear (disp : Word)
  /-- BR far-label: `11101010` (R314). -/
  | brFar (offset : Word) (segment : Word)
  /-- BR short-label: `11101011` (R311). -/
  | brShort (disp : Byte)
  /-- IN acc, DW: `1110110W` (R167). -/
  | inAccDw (w : Width)
  /-- OUT DW, acc: `1110111W` (R171). -/
  | outDwAcc (w : Width)
  /-- BUSLOCK prefix: `11110000` (R366). -/
  | buslock
  /-- REPNE_REPNZ prefix: `11110010` (R142). -/
  | repne
  /-- REP_REPE_REPZ prefix: `11110011` (R141). -/
  | rep
  /-- HALT: `11110100` (R362). -/
  | halt
  /-- NOT1 CY: `11110101` (R265). -/
  | not1Cy
  /-- CLR1 CY: `11111000` (R266). -/
  | clr1Cy
  /-- SET1 CY: `11111001` (R267). -/
  | set1Cy
  /-- DI: `11111010` (R360). -/
  | di
  /-- EI: `11111011` (R361). -/
  | ei
  /-- CLR1 DIR: `11111100` (R268). -/
  | clr1Dir
  /-- SET1 DIR: `11111101` (R269). -/
  | set1Dir
  /-- TEST1 reg8/mem8, CL or reg16/mem16, CL: `00001111 0001000W MM000EEE` (R261). -/
  | test1Cl (w : Width) (dst : RM)
  /-- TEST1 reg8/mem8, imm3 or reg16/mem16, imm4: `00001111 0001100W MM000EEE` (R261). -/
  | test1Imm (w : Width) (dst : RM) (bit : Byte)
  /-- CLR1 reg8/mem8, CL or reg16/mem16, CL: `00001111 0001001W MM000EEE` (R263). -/
  | clr1Cl (w : Width) (dst : RM)
  /-- CLR1 reg8/mem8, imm3 or reg16/mem16, imm4: `00001111 0001101W MM000EEE` (R263). -/
  | clr1Imm (w : Width) (dst : RM) (bit : Byte)
  /-- SET1 reg8/mem8, CL or reg16/mem16, CL: `00001111 0001010W MM000EEE` (R264). -/
  | set1Cl (w : Width) (dst : RM)
  /-- SET1 reg8/mem8, imm3 or reg16/mem16, imm4: `00001111 0001110W MM000EEE` (R264). -/
  | set1Imm (w : Width) (dst : RM) (bit : Byte)
  /-- NOT1 reg8/mem8, CL or reg16/mem16, CL: `00001111 0001011W MM000EEE` (R262). -/
  | not1Cl (w : Width) (dst : RM)
  /-- NOT1 reg8/mem8, imm3 or reg16/mem16, imm4: `00001111 0001111W MM000EEE` (R262). -/
  | not1Imm (w : Width) (dst : RM) (bit : Byte)
  /-- ADD4S: `00001111 00100000` (R221). -/
  | add4s
  /-- SUB4S: `00001111 00100010` (R222). -/
  | sub4s
  /-- CMP4S: `00001111 00100110` (R223). -/
  | cmp4s
  /-- ROL4 reg8/mem8: `00001111 00101000 MM000EEE` (R224). -/
  | rol4 (dst : RM)
  /-- ROR4 reg8/mem8: `00001111 00101010 MM000EEE` (R225). -/
  | ror4 (dst : RM)
  /-- INS reg8, reg8': `00001111 00110001 11rrrRRR` (R163). -/
  | insRegReg (offset : Reg) (length : Reg)
  /-- EXT reg8, reg8': `00001111 00110011 11rrrRRR` (R161). -/
  | extRegReg (offset : Reg) (length : Reg)
  /-- INS reg8, imm4: `00001111 00111001 11000RRR` (R164). -/
  | insRegImm (offset : Reg) (length : Byte)
  /-- EXT reg8, imm4: `00001111 00111011 11000RRR` (R162). -/
  | extRegImm (offset : Reg) (length : Byte)
  /-- BRKXA imm8: `00001111 11100000` (R387). -/
  | brkxa (vector : Byte)
  /-- RETXA imm8: `00001111 11110000` (R388). -/
  | retxa (vector : Byte)
  /-- BRKEM imm8: `00001111 11111111` (R384). -/
  | brkem (vector : Byte)
  /-- CALLN imm8: `11101101 11101101` (R382). -/
  | calln (vector : Byte)
  /-- RETEM: `11101101 11111101` (R383). -/
  | retem
  /-- (undefined) undefined code 63H: `01100011` (R95). -/
  | undef63
  /-- (undefined) undefined code D6H: `11010110` (R95). -/
  | undefD6
  /-- (undefined) undefined code F1H: `11110001` (R95). -/
  | undefF1
  /-- (undefined) undefined code Shift group /6 (C0H/C1H): `1100000W MM110EEE` (R95). -/
  | undefC0 (w : Width) (md : BitVec 2) (mem : BitVec 3)
  /-- (undefined) undefined code Shift group /6 (D0H/D1H): `1101000W MM110EEE` (R95). -/
  | undefD0 (w : Width) (md : BitVec 2) (mem : BitVec 3)
  /-- (undefined) undefined code Shift group /6 (D2H/D3H): `1101001W MM110EEE` (R95). -/
  | undefD2 (w : Width) (md : BitVec 2) (mem : BitVec 3)
  /-- (undefined) undefined code Group1 /1: `1111011W MM001EEE` (R95). -/
  | undefF6 (w : Width) (md : BitVec 2) (mem : BitVec 3)
  /-- (undefined) undefined code Group2 /7: `11111111 MM111EEE` (R95). -/
  | undefFF (md : BitVec 2) (mem : BitVec 3)
  /-- (undefined) undefined code FEH /2 to /7: `11111110 MMRRREEE` (R95). -/
  | undefFE (md : BitVec 2) (sub : BitVec 3) (mem : BitVec 3)
  /-- (undefined) undefined code: every second byte after 0FH not listed in this table (blank cells of Table C-4): `00001111` (R95). -/
  | undef0F (second : Byte)
  /-- (undefined) undefined code: D4H/D5H with a second byte other than 0AH: `1101010W` (R95). -/
  | undefCvt (w : Width) (second : Byte)
deriving DecidableEq, Repr

end Sys2Proof
end

