-- ==== Sys2Proof/WellFormed.lean ====
section
/-! DEFINITION. Which terms of `Instr` some byte sequence of a code map stands for. -/

namespace Sys2Proof

/-- `mod = 00` with `mem = 110` is the direct address, so no register-only form names BP alone (R76). -/
def MemArg.wf : MemArg → Bool
  | .based .bp => false
  | _ => true

/-- A register operand is always well-formed; a memory operand as `MemArg.wf` says. -/
def RM.wf : RM → Bool
  | .reg _ => true
  | .mem m => m.wf

/-- The second bytes after 0FH that Table C-4 gives a meaning on either class (R94). -/
def commonSecond : List Byte :=
  [0x10, 0x11, 0x12, 0x13, 0x14, 0x15, 0x16, 0x17, 0x18, 0x19, 0x1A, 0x1B, 0x1C, 0x1D, 0x1E, 0x1F,
   0x20, 0x22, 0x26, 0x28, 0x2A, 0x31, 0x33, 0x39, 0x3B]

/-- A second byte after 0FH that the class gives a meaning: 0F E0 and 0F F0 only on V33A and V53A, 0F FF only on
the others (R94, Notes of Table C-4). -/
def definedSecond (c : Cls) (b : Byte) : Bool :=
  commonSecond.contains b ||
    (match c with
     | .emu => b == 0xFF
     | .xa => b == 0xE0 || b == 0xF0)

/-- The class whose native-mode map a code map is, if it is one. -/
def CodeMap.nativeCls : CodeMap → Option Cls
  | .emuNative => some .emu
  | .xaNative => some .xa
  | .emulation => none

/-- The instruction is one that the code map holds (R2, R94, R96, R97): CALLN and RETEM in the emulation map only,
BRKEM on `cls = EMU` only, BRKXA and RETXA on `cls = XA` only, everything else in the native maps. -/
def Instr.inMap (m : CodeMap) : Instr → Bool
  | .calln _ | .retem => m == .emulation
  | .brkem _ => m == .emuNative
  | .brkxa _ | .retxa _ => m == .xaNative
  | _ => m != .emulation

/-- The operands of the instruction have an encoding of their own: a memory operand is well-formed, `XCH AW, AW` is
NOP's code (R127), an undefined FEH code has bits 5-3 from 010 (R95 (d)), an undefined 0FH code is one that the class
does not define (R94), and an undefined D4H or D5H code has a second byte other than 0AH (R95 (e)). -/
def Instr.operandsOk (m : CodeMap) : Instr → Bool
  | .addRmReg _ o _ | .addRegRm _ _ o | .addRmImm o _ | .orRmReg _ o _ | .orRegRm _ _ o | .orRmImm o _
  | .addcRmReg _ o _ | .addcRegRm _ _ o | .addcRmImm o _ | .subcRmReg _ o _ | .subcRegRm _ _ o | .subcRmImm o _
  | .andRmReg _ o _ | .andRegRm _ _ o | .andRmImm o _ | .subRmReg _ o _ | .subRegRm _ _ o | .subRmImm o _
  | .xorRmReg _ o _ | .xorRegRm _ _ o | .xorRmImm o _ | .cmpRmReg _ o _ | .cmpRegRm _ _ o | .cmpRmImm o _
  | .testRmReg _ o _ | .testRmImm o _ | .notRm _ o | .negRm _ o | .muluRm _ o | .mulRm _ o | .divuRm _ o
  | .divRm _ o | .mulRegRmImm16 _ o _ | .mulRegRmImm8 _ o _ | .incRm _ o | .decRm _ o | .movRmReg _ o _
  | .movRmSreg o _ | .movSregRm _ o | .rolOne _ o | .rolCl _ o | .rolImm _ o _ | .rorOne _ o | .rorCl _ o
  | .rorImm _ o _ | .rolcOne _ o | .rolcCl _ o | .rolcImm _ o _ | .rorcOne _ o | .rorcCl _ o | .rorcImm _ o _
  | .shlOne _ o | .shlCl _ o | .shlImm _ o _ | .shrOne _ o | .shrCl _ o | .shrImm _ o _ | .shraOne _ o
  | .shraCl _ o | .shraImm _ o _ | .test1Cl _ o | .test1Imm _ o _ | .clr1Cl _ o | .clr1Imm _ o _ | .set1Cl _ o
  | .set1Imm _ o _ | .not1Cl _ o | .not1Imm _ o _ | .rol4 o | .ror4 o => o.wf
  | .callMemptr16 o | .callMemptr32 o | .brMemptr16 o | .brMemptr32 o | .pushMem o | .popMem o | .chkind _ o
  | .fpo2Mem _ _ o | .xchMemReg _ o _ | .movRegMem _ _ o | .ldea _ o | .movDs1RegMem _ o | .movDs0RegMem _ o
  | .movMemImm o _ | .fpo1Mem _ _ o => o.wf
  | .xchAwReg r => r != .aw
  | .undefFE _ sub _ => 2 ≤ sub.toNat
  | .undef0F b => match m.nativeCls with
    | some c => !definedSecond c b
    | none => false
  | .undefCvt _ b => b != 0x0A
  | _ => true

/-- The instruction stands for bytes of the code map. -/
def Instr.wf (m : CodeMap) (i : Instr) : Bool := i.inMap m && i.operandsOk m

end Sys2Proof
end

