-- ==== Sys2Proof/Decode.lean ====
section
/-! DEFINITION. Decoding (R70 to R101) and encoding. Decoding is total: every byte sequence gives an instruction and
the bytes after it, or is rejected by name. -/

namespace Sys2Proof

/-- Why a byte sequence is no instruction of the code map. Every case but `truncated` and `emulationCode` is a code
that R95 or R116 calls undefined. -/
inductive Reject where
  /-- The bytes end inside the instruction; a fetch of 6 bytes never meets this (R70). -/
  | truncated
  /-- `mod = 11` in an instruction printed only with a memory operand (R95 (a)). -/
  | memoryOnly
  /-- Bits 5-3 of the second or third byte are not the printed 000 (R95 (b)). -/
  | reservedField
  /-- Bit 5 of the second byte of 8CH or 8EH is 1 (R95 (c)). -/
  | reservedBit
  /-- INS or EXT with `mod` other than 11 (R95 (f)). -/
  | registerOnly
  /-- `MOV PS, src` (R116, decision D19). -/
  | loadPs
  /-- A code of the emulation-mode map other than CALLN and RETEM, whose operation no source gives (R96, R97). -/
  | emulationCode
deriving DecidableEq, Repr

/-- What decoding answers: an instruction with the bytes that follow it, or why there is none. -/
abbrev Decoded := Except Reject (Instr × List Byte)

/-! ### Fields -/

/-- The W bit, bit 0 of an op code (R73). -/
def widthOf (b : Byte) : Width := if b.getLsbD 0 then .word else .byte

/-- The register a 3-bit `reg` field names (R7, R74). -/
def Reg.ofCode (c : BitVec 3) : Reg :=
  match c.toNat with
  | 0 => .aw
  | 1 => .cw
  | 2 => .dw
  | 3 => .bw
  | 4 => .sp
  | 5 => .bp
  | 6 => .ix
  | _ => .iy

/-- The segment register a 2-bit `sreg` field names (R75). -/
def SReg.ofCode (c : BitVec 2) : SReg :=
  match c.toNat with
  | 0 => .ds1
  | 1 => .ps
  | 2 => .ss
  | _ => .ds0

/-- The address registers a 3-bit `mem` field names (R76). -/
def Base.ofCode (c : BitVec 3) : Base :=
  match c.toNat with
  | 0 => .bwIx
  | 1 => .bwIy
  | 2 => .bpIx
  | 3 => .bpIy
  | 4 => .ix
  | 5 => .iy
  | 6 => .bp
  | _ => .bw

/-- `mod`, bits 7-6 of the byte that holds it (R76). -/
def modField (b : Byte) : BitVec 2 := b.extractLsb' 6 2

/-- Bits 5-3: `reg`, or the sub-operation of a group code (R74, R93). -/
def midField (b : Byte) : BitVec 3 := b.extractLsb' 3 3

/-- Bits 2-0: `mem`, or the register of a register form (R76). -/
def memField (b : Byte) : BitVec 3 := b.extractLsb' 0 3

/-- `sreg`, bits 4-3 (R75). -/
def sregField (b : Byte) : BitVec 2 := b.extractLsb' 3 2

/-! ### Operand bytes -/

/-- One operand byte. -/
def takeByte : List Byte → Except Reject (Byte × List Byte)
  | [] => .error .truncated
  | b :: rest => .ok (b, rest)

/-- A 16-bit operand field, low-order byte first (R42, R71). -/
def takeWord : List Byte → Except Reject (Word × List Byte)
  | lo :: hi :: rest => .ok (joinBytes lo hi, rest)
  | _ => .error .truncated

/-- Immediate data whose size is the operation's (R78). -/
def takeImm : Width → List Byte → Except Reject (Imm × List Byte)
  | .byte, bs => do
    let (v, rest) ← takeByte bs
    pure (.byte v, rest)
  | .word, bs => do
    let (v, rest) ← takeWord bs
    pure (.word v, rest)

/-- Immediate data of `1000 00sW`, by the two low bits of the op code (R78). -/
def takeImmS (op : Byte) (bs : List Byte) : Except Reject (ImmS × List Byte) :=
  match op.getLsbD 1, op.getLsbD 0 with
  | false, false => do
    let (v, rest) ← takeByte bs
    pure (.byte80 v, rest)
  | false, true => do
    let (v, rest) ← takeWord bs
    pure (.word81 v, rest)
  | true, false => do
    let (v, rest) ← takeByte bs
    pure (.byte82 v, rest)
  | true, true => do
    let (v, rest) ← takeByte bs
    pure (.sext83 v, rest)

/-- The operand of a `mod`/`mem` pair with its displacement bytes (R76, R77). -/
def takeDisp (md : BitVec 2) (mem : BitVec 3) (bs : List Byte) : Except Reject (RM × List Byte) :=
  match md.toNat with
  | 0 =>
    match Base.ofCode mem with
    | .bp => do
      let (a, rest) ← takeWord bs
      pure (.mem (.direct a), rest)
    | b => .ok (.mem (.based b), bs)
  | 1 => do
    let (d, rest) ← takeByte bs
    pure (.mem (.disp8 (Base.ofCode mem) d), rest)
  | 2 => do
    let (d, rest) ← takeWord bs
    pure (.mem (.disp16 (Base.ofCode mem) d), rest)
  | _ => .ok (.reg (Reg.ofCode mem), bs)

/-- A `mod mid mem` byte and its displacement: the middle field, the operand, the bytes after it. -/
def takeRM (bs : List Byte) : Except Reject (BitVec 3 × RM × List Byte) := do
  let (b, rest) ← takeByte bs
  let (rm, rest) ← takeDisp (modField b) (memField b) rest
  pure (midField b, rm, rest)

/-- A `mod mid mem` byte of an instruction printed only with a memory operand (R95 (a)). -/
def takeMem (bs : List Byte) : Except Reject (BitVec 3 × MemArg × List Byte) := do
  let (mid, rm, rest) ← takeRM bs
  match rm with
  | .mem m => pure (mid, m, rest)
  | .reg _ => .error .memoryOnly

/-- A `mod 000 mem` byte and its displacement (R94, R95 (b)). -/
def takeRM0 (bs : List Byte) : Except Reject (RM × List Byte) := do
  let (mid, rm, rest) ← takeRM bs
  if mid = 0 then pure (rm, rest) else .error .reservedField

/-- A `mod 000 mem` byte of an instruction printed only with a memory operand (R95 (a), (b)). -/
def takeMem0 (bs : List Byte) : Except Reject (MemArg × List Byte) := do
  let (mid, m, rest) ← takeMem bs
  if mid = 0 then pure (m, rest) else .error .reservedField

/-- The third byte `11 reg' reg` of INS and EXT: the length register, then the offset register (R161, R95 (f)). -/
def takeRegs (bs : List Byte) : Except Reject (BitVec 3 × Reg × List Byte) := do
  let (b, rest) ← takeByte bs
  if modField b = 3 then pure (midField b, Reg.ofCode (memField b), rest) else .error .registerOnly

/-! ### The groups -/

/-- The eight operations that share the six operand forms of R180 and R250. -/
inductive AluOp where
  | add | or | addc | subc | and | sub | xor | cmp
deriving DecidableEq, Repr

/-- The operation number `ooo`, which is also the sub-code of the Imm group (R93, R180, R250). -/
def AluOp.ofCode (c : BitVec 3) : AluOp :=
  match c.toNat with
  | 0 => .add
  | 1 => .or
  | 2 => .addc
  | 3 => .subc
  | 4 => .and
  | 5 => .sub
  | 6 => .xor
  | _ => .cmp

/-- The `mem, reg` form of an operation. -/
def AluOp.rmReg (o : AluOp) (w : Width) (rm : RM) (r : Reg) : Instr :=
  match o with
  | .add => .addRmReg w rm r
  | .or => .orRmReg w rm r
  | .addc => .addcRmReg w rm r
  | .subc => .subcRmReg w rm r
  | .and => .andRmReg w rm r
  | .sub => .subRmReg w rm r
  | .xor => .xorRmReg w rm r
  | .cmp => .cmpRmReg w rm r

/-- The `reg, mem` and `reg, reg'` forms of an operation. -/
def AluOp.regRm (o : AluOp) (w : Width) (r : Reg) (rm : RM) : Instr :=
  match o with
  | .add => .addRegRm w r rm
  | .or => .orRegRm w r rm
  | .addc => .addcRegRm w r rm
  | .subc => .subcRegRm w r rm
  | .and => .andRegRm w r rm
  | .sub => .subRegRm w r rm
  | .xor => .xorRegRm w r rm
  | .cmp => .cmpRegRm w r rm

/-- The `acc, imm` form of an operation. -/
def AluOp.accImm (o : AluOp) (v : Imm) : Instr :=
  match o with
  | .add => .addAccImm v
  | .or => .orAccImm v
  | .addc => .addcAccImm v
  | .subc => .subcAccImm v
  | .and => .andAccImm v
  | .sub => .subAccImm v
  | .xor => .xorAccImm v
  | .cmp => .cmpAccImm v

/-- The `reg, imm` and `mem, imm` forms of an operation. -/
def AluOp.rmImm (o : AluOp) (rm : RM) (v : ImmS) : Instr :=
  match o with
  | .add => .addRmImm rm v
  | .or => .orRmImm rm v
  | .addc => .addcRmImm rm v
  | .subc => .subcRmImm rm v
  | .and => .andRmImm rm v
  | .sub => .subRmImm rm v
  | .xor => .xorRmImm rm v
  | .cmp => .cmpRmImm rm v

/-- 00H to 3FH with low three bits 0 to 5: the two-operand codes `00ooo0dW` and `00ooo10W` (R89, R180, R250). -/
def decodeAlu (b : Byte) (bs : List Byte) : Decoded :=
  let o := AluOp.ofCode (midField b)
  let w := widthOf b
  if b.getLsbD 2 then do
    let (v, rest) ← takeImm w bs
    pure (o.accImm v, rest)
  else do
    let (r, rm, rest) ← takeRM bs
    pure (if b.getLsbD 1 then o.regRm w (.ofCode r) rm else o.rmReg w rm (.ofCode r), rest)

/-- 80H to 83H: the Imm group (R93). -/
def decodeImmGroup (b : Byte) (bs : List Byte) : Decoded := do
  let (sub, rm, rest) ← takeRM bs
  let (v, rest) ← takeImmS b rest
  pure ((AluOp.ofCode sub).rmImm rm v, rest)

/-- The Shift group with count 1, D0H and D1H (R93, R270). -/
def decodeShiftOne (w : Width) (bs : List Byte) : Decoded := do
  let (b, _) ← takeByte bs
  if midField b = 6 then
    pure (.undefD0 w (modField b) (memField b), bs.tail)
  else do
    let (sub, rm, rest) ← takeRM bs
    pure (match sub.toNat with
      | 0 => .rolOne w rm
      | 1 => .rorOne w rm
      | 2 => .rolcOne w rm
      | 3 => .rorcOne w rm
      | 4 => .shlOne w rm
      | 5 => .shrOne w rm
      | _ => .shraOne w rm, rest)

/-- The Shift group with count CL, D2H and D3H (R93, R270). -/
def decodeShiftCl (w : Width) (bs : List Byte) : Decoded := do
  let (b, _) ← takeByte bs
  if midField b = 6 then
    pure (.undefD2 w (modField b) (memField b), bs.tail)
  else do
    let (sub, rm, rest) ← takeRM bs
    pure (match sub.toNat with
      | 0 => .rolCl w rm
      | 1 => .rorCl w rm
      | 2 => .rolcCl w rm
      | 3 => .rorcCl w rm
      | 4 => .shlCl w rm
      | 5 => .shrCl w rm
      | _ => .shraCl w rm, rest)

/-- The Shift group with count imm8, C0H and C1H (R93, R270). -/
def decodeShiftImm (w : Width) (bs : List Byte) : Decoded := do
  let (b, _) ← takeByte bs
  if midField b = 6 then
    pure (.undefC0 w (modField b) (memField b), bs.tail)
  else do
    let (sub, rm, rest) ← takeRM bs
    let (n, rest) ← takeByte rest
    pure (match sub.toNat with
      | 0 => .rolImm w rm n
      | 1 => .rorImm w rm n
      | 2 => .rolcImm w rm n
      | 3 => .rorcImm w rm n
      | 4 => .shlImm w rm n
      | 5 => .shrImm w rm n
      | _ => .shraImm w rm n, rest)

/-- Group1, F6H and F7H (R93). -/
def decodeGroup1 (w : Width) (bs : List Byte) : Decoded := do
  let (b, _) ← takeByte bs
  if midField b = 1 then
    pure (.undefF6 w (modField b) (memField b), bs.tail)
  else do
    let (sub, rm, rest) ← takeRM bs
    match sub.toNat with
    | 0 => do
      let (v, rest) ← takeImm w rest
      pure (.testRmImm rm v, rest)
    | 2 => pure (.notRm w rm, rest)
    | 3 => pure (.negRm w rm, rest)
    | 4 => pure (.muluRm w rm, rest)
    | 5 => pure (.mulRm w rm, rest)
    | 6 => pure (.divuRm w rm, rest)
    | _ => pure (.divRm w rm, rest)

/-- Group2 with first byte FEH: INC and DEC only (R93, R95 (d)). -/
def decodeGroup2Byte (bs : List Byte) : Decoded := do
  let (b, _) ← takeByte bs
  if 2 ≤ (midField b).toNat then
    pure (.undefFE (modField b) (midField b) (memField b), bs.tail)
  else do
    let (sub, rm, rest) ← takeRM bs
    pure (if sub = 0 then .incRm .byte rm else .decRm .byte rm, rest)

/-- Group2 with first byte FFH (R93, R95 (a)). -/
def decodeGroup2Word (bs : List Byte) : Decoded := do
  let (b, _) ← takeByte bs
  if midField b = 7 then
    pure (.undefFF (modField b) (memField b), bs.tail)
  else do
    let (sub, rm, rest) ← takeRM bs
    match sub.toNat, rm with
    | 0, rm => pure (.incRm .word rm, rest)
    | 1, rm => pure (.decRm .word rm, rest)
    | 2, .reg r => pure (.callRegptr r, rest)
    | 2, .mem m => pure (.callMemptr16 m, rest)
    | 3, .mem m => pure (.callMemptr32 m, rest)
    | 4, .reg r => pure (.brRegptr r, rest)
    | 4, .mem m => pure (.brMemptr16 m, rest)
    | 5, .mem m => pure (.brMemptr32 m, rest)
    | 6, .mem m => pure (.pushMem m, rest)
    | _, _ => .error .memoryOnly

/-- The bit manipulation forms of Group3: the second byte is `0001 ioow` with `i` the immediate form, `oo` the
operation, `w` the width (R94, R260). -/
def decodeBit (b : Byte) (bs : List Byte) : Decoded := do
  let w := widthOf b
  let (rm, rest) ← takeRM0 bs
  if b.getLsbD 3 then do
    let (n, rest) ← takeByte rest
    pure (match b.getLsbD 2, b.getLsbD 1 with
      | false, false => .test1Imm w rm n
      | false, true => .clr1Imm w rm n
      | true, false => .set1Imm w rm n
      | true, true => .not1Imm w rm n, rest)
  else
    pure (match b.getLsbD 2, b.getLsbD 1 with
      | false, false => .test1Cl w rm
      | false, true => .clr1Cl w rm
      | true, false => .set1Cl w rm
      | true, true => .not1Cl w rm, rest)

/-- Group3, first byte 0FH (R94). -/
def decodeGroup3 (c : Cls) : List Byte → Decoded
  | [] => .error .truncated
  | b :: bs =>
    if b.toNat / 16 = 1 then decodeBit b bs
    else
      match b.toNat with
      | 0x20 => .ok (.add4s, bs)
      | 0x22 => .ok (.sub4s, bs)
      | 0x26 => .ok (.cmp4s, bs)
      | 0x28 => do
        let (rm, rest) ← takeRM0 bs
        pure (.rol4 rm, rest)
      | 0x2A => do
        let (rm, rest) ← takeRM0 bs
        pure (.ror4 rm, rest)
      | 0x31 => do
        let (l, r, rest) ← takeRegs bs
        pure (.insRegReg r (.ofCode l), rest)
      | 0x33 => do
        let (l, r, rest) ← takeRegs bs
        pure (.extRegReg r (.ofCode l), rest)
      | 0x39 => do
        let (l, r, rest) ← takeRegs bs
        let (n, rest) ← takeByte rest
        if l = 0 then pure (.insRegImm r n, rest) else .error .reservedField
      | 0x3B => do
        let (l, r, rest) ← takeRegs bs
        let (n, rest) ← takeByte rest
        if l = 0 then pure (.extRegImm r n, rest) else .error .reservedField
      | n =>
        match c, n with
        | .xa, 0xE0 => do
          let (v, rest) ← takeByte bs
          pure (.brkxa v, rest)
        | .xa, 0xF0 => do
          let (v, rest) ← takeByte bs
          pure (.retxa v, rest)
        | .emu, 0xFF => do
          let (v, rest) ← takeByte bs
          pure (.brkem v, rest)
        | _, _ => .ok (.undef0F b, bs)

/-! ### The first-byte map -/

/-- 00H to 3FH with low three bits 6 or 7: segment register pushes and pops, Group3, segment override prefixes and
BCD adjustment (R89). -/
def decodeLow (c : Cls) (b : Byte) (bs : List Byte) : Decoded :=
  match b.toNat with
  | 0x06 => .ok (.pushSreg .ds1, bs)
  | 0x07 => .ok (.popSreg .ds1, bs)
  | 0x0E => .ok (.pushSreg .ps, bs)
  | 0x0F => decodeGroup3 c bs
  | 0x16 => .ok (.pushSreg .ss, bs)
  | 0x17 => .ok (.popSreg .ss, bs)
  | 0x1E => .ok (.pushSreg .ds0, bs)
  | 0x1F => .ok (.popSreg .ds0, bs)
  | 0x26 => .ok (.segDs1, bs)
  | 0x27 => .ok (.adj4a, bs)
  | 0x2E => .ok (.segPs, bs)
  | 0x2F => .ok (.adj4s, bs)
  | 0x36 => .ok (.segSs, bs)
  | 0x37 => .ok (.adjba, bs)
  | 0x3E => .ok (.segDs0, bs)
  | _ => .ok (.adjbs, bs)

/-- 60H to 6FH (R90). -/
def decodeRow6 (b : Byte) (bs : List Byte) : Decoded :=
  match b.toNat % 16 with
  | 0x0 => .ok (.pushR, bs)
  | 0x1 => .ok (.popR, bs)
  | 0x2 => do
    let (r, m, rest) ← takeMem bs
    pure (.chkind (.ofCode r) m, rest)
  | 0x3 => .ok (.undef63, bs)
  | 0x4 => .ok (.repnc, bs)
  | 0x5 => .ok (.repc, bs)
  | 0x8 => do
    let (v, rest) ← takeWord bs
    pure (.pushImm16 v, rest)
  | 0x9 => do
    let (r, rm, rest) ← takeRM bs
    let (v, rest) ← takeWord rest
    pure (.mulRegRmImm16 (.ofCode r) rm v, rest)
  | 0xA => do
    let (v, rest) ← takeByte bs
    pure (.pushImm8 v, rest)
  | 0xB => do
    let (r, rm, rest) ← takeRM bs
    let (v, rest) ← takeByte rest
    pure (.mulRegRmImm8 (.ofCode r) rm v, rest)
  | 0xC | 0xD => .ok (.inm (widthOf b), bs)
  | 0xE | 0xF => .ok (.outm (widthOf b), bs)
  | _ => do
    let (s, bs') ← takeByte bs
    let (y, rm, rest) ← takeRM bs
    match rm with
    | .reg _ => pure (.fpo2Reg (b.extractLsb' 0 1) y (memField s), bs')
    | .mem m => pure (.fpo2Mem (b.extractLsb' 0 1) y m, rest)

/-- 70H to 7FH: the flag-testing branches (R90, R317 to R332). -/
def decodeRow7 (b : Byte) (bs : List Byte) : Decoded := do
  let (d, rest) ← takeByte bs
  pure (match b.toNat % 16 with
    | 0x0 => .bv d
    | 0x1 => .bnv d
    | 0x2 => .bc d
    | 0x3 => .bnc d
    | 0x4 => .be d
    | 0x5 => .bne d
    | 0x6 => .bnh d
    | 0x7 => .bh d
    | 0x8 => .bn d
    | 0x9 => .bp d
    | 0xA => .bpe d
    | 0xB => .bpo d
    | 0xC => .blt d
    | 0xD => .bge d
    | 0xE => .ble d
    | _ => .bgt d, rest)

/-- 80H to 8FH (R91). -/
def decodeRow8 (b : Byte) (bs : List Byte) : Decoded :=
  let w := widthOf b
  match b.toNat % 16 with
  | 0x4 | 0x5 => do
    let (r, rm, rest) ← takeRM bs
    pure (.testRmReg w rm (.ofCode r), rest)
  | 0x6 | 0x7 => do
    let (r, rm, rest) ← takeRM bs
    match rm with
    | .reg r' => pure (.xchRegReg w (.ofCode r) r', rest)
    | .mem m => pure (.xchMemReg w m (.ofCode r), rest)
  | 0x8 | 0x9 => do
    let (r, rm, rest) ← takeRM bs
    pure (.movRmReg w rm (.ofCode r), rest)
  | 0xA | 0xB => do
    let (r, rm, rest) ← takeRM bs
    match rm with
    | .reg r' => pure (.movRegReg w (.ofCode r) r', rest)
    | .mem m => pure (.movRegMem w (.ofCode r) m, rest)
  | 0xC => do
    let (s, rm, rest) ← takeRM bs
    if s.getLsbD 2 then .error .reservedBit
    else pure (.movRmSreg rm (.ofCode (s.extractLsb' 0 2)), rest)
  | 0xD => do
    let (r, m, rest) ← takeMem bs
    pure (.ldea (.ofCode r) m, rest)
  | 0xE => do
    let (s, rm, rest) ← takeRM bs
    if s.getLsbD 2 then .error .reservedBit
    else
      match SReg.ofCode (s.extractLsb' 0 2) with
      | .ds1 => pure (.movSregRm .ds1 rm, rest)
      | .ps => .error .loadPs
      | .ss => pure (.movSregRm .ss rm, rest)
      | .ds0 => pure (.movSregRm .ds0 rm, rest)
  | 0xF => do
    let (m, rest) ← takeMem0 bs
    pure (.popMem m, rest)
  | _ => decodeImmGroup b bs

/-- 90H to 9FH (R91). -/
def decodeRow9 (b : Byte) (bs : List Byte) : Decoded :=
  match b.toNat % 16 with
  | 0x0 => .ok (.nop, bs)
  | 0x8 => .ok (.cvtbw, bs)
  | 0x9 => .ok (.cvtwl, bs)
  | 0xA => do
    let (o, rest) ← takeWord bs
    let (s, rest) ← takeWord rest
    pure (.callFar o s, rest)
  | 0xB => .ok (.poll, bs)
  | 0xC => .ok (.pushPsw, bs)
  | 0xD => .ok (.popPsw, bs)
  | 0xE => .ok (.movPswAh, bs)
  | 0xF => .ok (.movAhPsw, bs)
  | _ => .ok (.xchAwReg (.ofCode (memField b)), bs)

/-- A0H to AFH (R91). -/
def decodeRowA (b : Byte) (bs : List Byte) : Decoded :=
  let w := widthOf b
  match b.toNat % 16 with
  | 0x0 | 0x1 => do
    let (a, rest) ← takeWord bs
    pure (.movAccDmem w a, rest)
  | 0x2 | 0x3 => do
    let (a, rest) ← takeWord bs
    pure (.movDmemAcc w a, rest)
  | 0x4 | 0x5 => .ok (.movbk w, bs)
  | 0x6 | 0x7 => .ok (.cmpbk w, bs)
  | 0x8 | 0x9 => do
    let (v, rest) ← takeImm w bs
    pure (.testAccImm v, rest)
  | 0xA | 0xB => .ok (.stm w, bs)
  | 0xC | 0xD => .ok (.ldm w, bs)
  | _ => .ok (.cmpm w, bs)

/-- C0H to CFH (R92). -/
def decodeRowC (b : Byte) (bs : List Byte) : Decoded :=
  match b.toNat % 16 with
  | 0x0 | 0x1 => decodeShiftImm (widthOf b) bs
  | 0x2 => do
    let (v, rest) ← takeWord bs
    pure (.retPop v, rest)
  | 0x3 => .ok (.ret, bs)
  | 0x4 => do
    let (r, m, rest) ← takeMem bs
    pure (.movDs1RegMem (.ofCode r) m, rest)
  | 0x5 => do
    let (r, m, rest) ← takeMem bs
    pure (.movDs0RegMem (.ofCode r) m, rest)
  | 0x6 | 0x7 => do
    let (m, rest) ← takeMem0 bs
    let (v, rest) ← takeImm (widthOf b) rest
    pure (.movMemImm m v, rest)
  | 0x8 => do
    let (s, rest) ← takeWord bs
    let (l, rest) ← takeByte rest
    pure (.prepare s l, rest)
  | 0x9 => .ok (.dispose, bs)
  | 0xA => do
    let (v, rest) ← takeWord bs
    pure (.retFarPop v, rest)
  | 0xB => .ok (.retFar, bs)
  | 0xC => .ok (.brk3, bs)
  | 0xD => do
    let (v, rest) ← takeByte bs
    pure (.brkImm v, rest)
  | 0xE => .ok (.brkv, bs)
  | _ => .ok (.reti, bs)

/-- D0H to DFH (R92). -/
def decodeRowD (b : Byte) (bs : List Byte) : Decoded :=
  match b.toNat % 16 with
  | 0x0 | 0x1 => decodeShiftOne (widthOf b) bs
  | 0x2 | 0x3 => decodeShiftCl (widthOf b) bs
  | 0x4 | 0x5 => do
    let (s, rest) ← takeByte bs
    pure (if s = 0x0A then (if b.getLsbD 0 then .cvtdb else .cvtbd) else .undefCvt (widthOf b) s, rest)
  | 0x6 => .ok (.undefD6, bs)
  | 0x7 => .ok (.trans, bs)
  | _ => do
    let (s, bs') ← takeByte bs
    let (y, rm, rest) ← takeRM bs
    match rm with
    | .reg _ => pure (.fpo1Reg (memField b) y (memField s), bs')
    | .mem m => pure (.fpo1Mem (memField b) y m, rest)

/-- E0H to EFH (R92). -/
def decodeRowE (b : Byte) (bs : List Byte) : Decoded :=
  let w := widthOf b
  match b.toNat % 16 with
  | 0x8 => do
    let (d, rest) ← takeWord bs
    pure (.callNear d, rest)
  | 0x9 => do
    let (d, rest) ← takeWord bs
    pure (.brNear d, rest)
  | 0xA => do
    let (o, rest) ← takeWord bs
    let (s, rest) ← takeWord rest
    pure (.brFar o s, rest)
  | 0xC | 0xD => .ok (.inAccDw w, bs)
  | 0xE | 0xF => .ok (.outDwAcc w, bs)
  | n => do
    let (v, rest) ← takeByte bs
    pure (match n with
      | 0x0 => .dbnzne v
      | 0x1 => .dbnze v
      | 0x2 => .dbnz v
      | 0x3 => .bcwz v
      | 0x4 | 0x5 => .inAccImm w v
      | 0x6 | 0x7 => .outImmAcc w v
      | _ => .brShort v, rest)

/-- F0H to FFH (R92). -/
def decodeRowF (b : Byte) (bs : List Byte) : Decoded :=
  match b.toNat % 16 with
  | 0x0 => .ok (.buslock, bs)
  | 0x1 => .ok (.undefF1, bs)
  | 0x2 => .ok (.repne, bs)
  | 0x3 => .ok (.rep, bs)
  | 0x4 => .ok (.halt, bs)
  | 0x5 => .ok (.not1Cy, bs)
  | 0x6 | 0x7 => decodeGroup1 (widthOf b) bs
  | 0x8 => .ok (.clr1Cy, bs)
  | 0x9 => .ok (.set1Cy, bs)
  | 0xA => .ok (.di, bs)
  | 0xB => .ok (.ei, bs)
  | 0xC => .ok (.clr1Dir, bs)
  | 0xD => .ok (.set1Dir, bs)
  | 0xE => decodeGroup2Byte bs
  | _ => decodeGroup2Word bs

/-- The native-mode map of a class by its first byte (R88 to R92). -/
def decodeNative (c : Cls) (b : Byte) (bs : List Byte) : Decoded :=
  match b.toNat / 16 with
  | 0x0 | 0x1 | 0x2 | 0x3 => if b.getLsbD 2 && b.getLsbD 1 then decodeLow c b bs else decodeAlu b bs
  | 0x4 => .ok (if b.getLsbD 3 then .decReg (.ofCode (memField b)) else .incReg (.ofCode (memField b)), bs)
  | 0x5 => .ok (if b.getLsbD 3 then .popReg (.ofCode (memField b)) else .pushReg (.ofCode (memField b)), bs)
  | 0x6 => decodeRow6 b bs
  | 0x7 => decodeRow7 b bs
  | 0x8 => decodeRow8 b bs
  | 0x9 => decodeRow9 b bs
  | 0xA => decodeRowA b bs
  | 0xB => do
    let (v, rest) ← takeImm (if b.getLsbD 3 then .word else .byte) bs
    pure (.movRegImm (.ofCode (memField b)) v, rest)
  | 0xC => decodeRowC b bs
  | 0xD => decodeRowD b bs
  | 0xE => decodeRowE b bs
  | _ => decodeRowF b bs

/-- The emulation-mode map: of its codes only CALLN and RETEM have a stated operation (R96, R97, R382, R383). -/
def decodeEmulation : List Byte → Decoded
  | 0xED :: 0xED :: v :: rest => .ok (.calln v, rest)
  | 0xED :: 0xED :: [] => .error .truncated
  | 0xED :: 0xFD :: rest => .ok (.retem, rest)
  | [] | [0xED] => .error .truncated
  | _ => .error .emulationCode

/-- The first instruction of a byte sequence, read by a code map, and the bytes after it. -/
def decode (m : CodeMap) (bs : List Byte) : Decoded :=
  match m.nativeCls with
  | none => decodeEmulation bs
  | some c => do
    let (b, rest) ← takeByte bs
    decodeNative c b rest

/-! ### Encoding -/

/-- The code of a register (R7). -/
def Reg.code : Reg → BitVec 3
  | .aw => 0
  | .cw => 1
  | .dw => 2
  | .bw => 3
  | .sp => 4
  | .bp => 5
  | .ix => 6
  | .iy => 7

/-- The code of a segment register (R75). -/
def SReg.code : SReg → BitVec 2
  | .ds1 => 0
  | .ps => 1
  | .ss => 2
  | .ds0 => 3

/-- A loadable segment register as a segment register. -/
def DataSReg.toSReg : DataSReg → SReg
  | .ds1 => .ds1
  | .ss => .ss
  | .ds0 => .ds0

/-- The code of a pair of address registers (R76). -/
def Base.code : Base → BitVec 3
  | .bwIx => 0
  | .bwIy => 1
  | .bpIx => 2
  | .bpIy => 3
  | .ix => 4
  | .iy => 5
  | .bp => 6
  | .bw => 7

/-- An op code whose bit 0 is W (R73). -/
def opW (op : Byte) : Width → Byte
  | .byte => op
  | .word => op ||| 1

/-- An op code whose bits 2-0 are a register (R74). -/
def opReg (op : Byte) (r : Reg) : Byte := op ||| r.code.setWidth 8

/-- A `mod mid mem` byte (R76). -/
def modMidMem (md : BitVec 2) (mid mem : BitVec 3) : Byte := 
  md.setWidth 8 <<< 6 ||| mid.setWidth 8 <<< 3 ||| mem.setWidth 8

/-- A 16-bit field, low-order byte first (R71). -/
def wordBytes (v : Word) : List Byte := [lowByte v, highByte v]

/-- Immediate data, low-order byte first. -/
def Imm.bytes : Imm → List Byte
  | .byte v => [v]
  | .word v => wordBytes v

/-- The width an immediate operand fixes. -/
def Imm.width : Imm → Width
  | .byte _ => .byte
  | .word _ => .word

/-- Immediate data of the Imm group. -/
def ImmS.bytes : ImmS → List Byte
  | .byte80 v | .byte82 v | .sext83 v => [v]
  | .word81 v => wordBytes v

/-- The first byte `1000 00sW` of the Imm group (R78). -/
def ImmS.op : ImmS → Byte
  | .byte80 _ => 0x80
  | .word81 _ => 0x81
  | .byte82 _ => 0x82
  | .sext83 _ => 0x83

/-- The `mod mid mem` byte of a memory operand and its displacement (R76, R77). -/
def encodeMem (mid : BitVec 3) : MemArg → List Byte
  | .direct a => modMidMem 0 mid 6 :: wordBytes a
  | .based b => [modMidMem 0 mid b.code]
  | .disp8 b d => [modMidMem 1 mid b.code, d]
  | .disp16 b d => modMidMem 2 mid b.code :: wordBytes d

/-- The `mod mid mem` byte of an operand and its displacement (R76, R77). -/
def encodeRM (mid : BitVec 3) : RM → List Byte
  | .reg r => [modMidMem 3 mid r.code]
  | .mem m => encodeMem mid m

/-- The bytes of an instruction, from its encoding in spec/opcode_table.json. -/
def encode : Instr → List Byte
  | .addRmReg w rm r => opW 0x00 w :: encodeRM r.code rm
  | .addRegRm w r rm => opW 0x02 w :: encodeRM r.code rm
  | .addAccImm v => opW 0x04 v.width :: v.bytes
  | .addRmImm rm v => v.op :: (encodeRM 0 rm ++ v.bytes)
  | .orRmReg w rm r => opW 0x08 w :: encodeRM r.code rm
  | .orRegRm w r rm => opW 0x0A w :: encodeRM r.code rm
  | .orAccImm v => opW 0x0C v.width :: v.bytes
  | .orRmImm rm v => v.op :: (encodeRM 1 rm ++ v.bytes)
  | .addcRmReg w rm r => opW 0x10 w :: encodeRM r.code rm
  | .addcRegRm w r rm => opW 0x12 w :: encodeRM r.code rm
  | .addcAccImm v => opW 0x14 v.width :: v.bytes
  | .addcRmImm rm v => v.op :: (encodeRM 2 rm ++ v.bytes)
  | .subcRmReg w rm r => opW 0x18 w :: encodeRM r.code rm
  | .subcRegRm w r rm => opW 0x1A w :: encodeRM r.code rm
  | .subcAccImm v => opW 0x1C v.width :: v.bytes
  | .subcRmImm rm v => v.op :: (encodeRM 3 rm ++ v.bytes)
  | .andRmReg w rm r => opW 0x20 w :: encodeRM r.code rm
  | .andRegRm w r rm => opW 0x22 w :: encodeRM r.code rm
  | .andAccImm v => opW 0x24 v.width :: v.bytes
  | .andRmImm rm v => v.op :: (encodeRM 4 rm ++ v.bytes)
  | .subRmReg w rm r => opW 0x28 w :: encodeRM r.code rm
  | .subRegRm w r rm => opW 0x2A w :: encodeRM r.code rm
  | .subAccImm v => opW 0x2C v.width :: v.bytes
  | .subRmImm rm v => v.op :: (encodeRM 5 rm ++ v.bytes)
  | .xorRmReg w rm r => opW 0x30 w :: encodeRM r.code rm
  | .xorRegRm w r rm => opW 0x32 w :: encodeRM r.code rm
  | .xorAccImm v => opW 0x34 v.width :: v.bytes
  | .xorRmImm rm v => v.op :: (encodeRM 6 rm ++ v.bytes)
  | .cmpRmReg w rm r => opW 0x38 w :: encodeRM r.code rm
  | .cmpRegRm w r rm => opW 0x3A w :: encodeRM r.code rm
  | .cmpAccImm v => opW 0x3C v.width :: v.bytes
  | .cmpRmImm rm v => v.op :: (encodeRM 7 rm ++ v.bytes)
  | .testRmReg w rm r => opW 0x84 w :: encodeRM r.code rm
  | .testAccImm v => opW 0xA8 v.width :: v.bytes
  | .testRmImm rm v => opW 0xF6 v.width :: (encodeRM 0 rm ++ v.bytes)
  | .notRm w rm => opW 0xF6 w :: encodeRM 2 rm
  | .negRm w rm => opW 0xF6 w :: encodeRM 3 rm
  | .muluRm w rm => opW 0xF6 w :: encodeRM 4 rm
  | .mulRm w rm => opW 0xF6 w :: encodeRM 5 rm
  | .divuRm w rm => opW 0xF6 w :: encodeRM 6 rm
  | .divRm w rm => opW 0xF6 w :: encodeRM 7 rm
  | .mulRegRmImm16 r rm v => 0x69 :: (encodeRM r.code rm ++ wordBytes v)
  | .mulRegRmImm8 r rm v => 0x6B :: (encodeRM r.code rm ++ [v])
  | .incReg r => [opReg 0x40 r]
  | .decReg r => [opReg 0x48 r]
  | .incRm w rm => opW 0xFE w :: encodeRM 0 rm
  | .decRm w rm => opW 0xFE w :: encodeRM 1 rm
  | .callRegptr r => 0xFF :: encodeRM 2 (.reg r)
  | .callMemptr16 m => 0xFF :: encodeMem 2 m
  | .callMemptr32 m => 0xFF :: encodeMem 3 m
  | .brRegptr r => 0xFF :: encodeRM 4 (.reg r)
  | .brMemptr16 m => 0xFF :: encodeMem 4 m
  | .brMemptr32 m => 0xFF :: encodeMem 5 m
  | .pushMem m => 0xFF :: encodeMem 6 m
  | .pushReg r => [opReg 0x50 r]
  | .popReg r => [opReg 0x58 r]
  | .pushSreg s => [0x06 ||| (s.code.setWidth 8 <<< 3)]
  | .popSreg s => [0x07 ||| (s.toSReg.code.setWidth 8 <<< 3)]
  | .pushPsw => [0x9C]
  | .popPsw => [0x9D]
  | .pushR => [0x60]
  | .popR => [0x61]
  | .pushImm16 v => 0x68 :: wordBytes v
  | .pushImm8 v => [0x6A, v]
  | .popMem m => 0x8F :: encodeMem 0 m
  | .prepare s l => 0xC8 :: (wordBytes s ++ [l])
  | .dispose => [0xC9]
  | .segDs1 => [0x26]
  | .segPs => [0x2E]
  | .segSs => [0x36]
  | .segDs0 => [0x3E]
  | .adj4a => [0x27]
  | .adj4s => [0x2F]
  | .adjba => [0x37]
  | .adjbs => [0x3F]
  | .chkind r m => 0x62 :: encodeMem r.code m
  | .repnc => [0x64]
  | .repc => [0x65]
  | .fpo2Reg x y z => [0x66 ||| x.setWidth 8, modMidMem 3 y z]
  | .fpo2Mem x y m => (0x66 ||| x.setWidth 8) :: encodeMem y m
  | .inm w => [opW 0x6C w]
  | .outm w => [opW 0x6E w]
  | .bv d => [0x70, d]
  | .bnv d => [0x71, d]
  | .bc d => [0x72, d]
  | .bnc d => [0x73, d]
  | .be d => [0x74, d]
  | .bne d => [0x75, d]
  | .bnh d => [0x76, d]
  | .bh d => [0x77, d]
  | .bn d => [0x78, d]
  | .bp d => [0x79, d]
  | .bpe d => [0x7A, d]
  | .bpo d => [0x7B, d]
  | .blt d => [0x7C, d]
  | .bge d => [0x7D, d]
  | .ble d => [0x7E, d]
  | .bgt d => [0x7F, d]
  | .dbnzne d => [0xE0, d]
  | .dbnze d => [0xE1, d]
  | .dbnz d => [0xE2, d]
  | .bcwz d => [0xE3, d]
  | .xchRegReg w a b => opW 0x86 w :: encodeRM a.code (.reg b)
  | .xchMemReg w m r => opW 0x86 w :: encodeMem r.code m
  | .movRmReg w rm r => opW 0x88 w :: encodeRM r.code rm
  | .movRegReg w r r' => opW 0x8A w :: encodeRM r.code (.reg r')
  | .movRegMem w r m => opW 0x8A w :: encodeMem r.code m
  | .movRmSreg rm s => 0x8C :: encodeRM (s.code.setWidth 3) rm
  | .ldea r m => 0x8D :: encodeMem r.code m
  | .movSregRm s rm => 0x8E :: encodeRM (s.toSReg.code.setWidth 3) rm
  | .nop => [0x90]
  | .xchAwReg r => [opReg 0x90 r]
  | .cvtbw => [0x98]
  | .cvtwl => [0x99]
  | .callFar o s => 0x9A :: (wordBytes o ++ wordBytes s)
  | .poll => [0x9B]
  | .movPswAh => [0x9E]
  | .movAhPsw => [0x9F]
  | .movAccDmem w a => opW 0xA0 w :: wordBytes a
  | .movDmemAcc w a => opW 0xA2 w :: wordBytes a
  | .movbk w => [opW 0xA4 w]
  | .cmpbk w => [opW 0xA6 w]
  | .stm w => [opW 0xAA w]
  | .ldm w => [opW 0xAC w]
  | .cmpm w => [opW 0xAE w]
  | .movRegImm r v => match v with
    | .byte b => [opReg 0xB0 r, b]
    | .word x => opReg 0xB8 r :: wordBytes x
  | .rolOne w rm => opW 0xD0 w :: encodeRM 0 rm
  | .rolCl w rm => opW 0xD2 w :: encodeRM 0 rm
  | .rolImm w rm n => opW 0xC0 w :: (encodeRM 0 rm ++ [n])
  | .rorOne w rm => opW 0xD0 w :: encodeRM 1 rm
  | .rorCl w rm => opW 0xD2 w :: encodeRM 1 rm
  | .rorImm w rm n => opW 0xC0 w :: (encodeRM 1 rm ++ [n])
  | .rolcOne w rm => opW 0xD0 w :: encodeRM 2 rm
  | .rolcCl w rm => opW 0xD2 w :: encodeRM 2 rm
  | .rolcImm w rm n => opW 0xC0 w :: (encodeRM 2 rm ++ [n])
  | .rorcOne w rm => opW 0xD0 w :: encodeRM 3 rm
  | .rorcCl w rm => opW 0xD2 w :: encodeRM 3 rm
  | .rorcImm w rm n => opW 0xC0 w :: (encodeRM 3 rm ++ [n])
  | .shlOne w rm => opW 0xD0 w :: encodeRM 4 rm
  | .shlCl w rm => opW 0xD2 w :: encodeRM 4 rm
  | .shlImm w rm n => opW 0xC0 w :: (encodeRM 4 rm ++ [n])
  | .shrOne w rm => opW 0xD0 w :: encodeRM 5 rm
  | .shrCl w rm => opW 0xD2 w :: encodeRM 5 rm
  | .shrImm w rm n => opW 0xC0 w :: (encodeRM 5 rm ++ [n])
  | .shraOne w rm => opW 0xD0 w :: encodeRM 7 rm
  | .shraCl w rm => opW 0xD2 w :: encodeRM 7 rm
  | .shraImm w rm n => opW 0xC0 w :: (encodeRM 7 rm ++ [n])
  | .retPop v => 0xC2 :: wordBytes v
  | .ret => [0xC3]
  | .movDs1RegMem r m => 0xC4 :: encodeMem r.code m
  | .movDs0RegMem r m => 0xC5 :: encodeMem r.code m
  | .movMemImm m v => opW 0xC6 v.width :: (encodeMem 0 m ++ v.bytes)
  | .retFarPop v => 0xCA :: wordBytes v
  | .retFar => [0xCB]
  | .brk3 => [0xCC]
  | .brkImm v => [0xCD, v]
  | .brkv => [0xCE]
  | .reti => [0xCF]
  | .cvtbd => [0xD4, 0x0A]
  | .cvtdb => [0xD5, 0x0A]
  | .trans => [0xD7]
  | .fpo1Reg x y z => [0xD8 ||| x.setWidth 8, modMidMem 3 y z]
  | .fpo1Mem x y m => (0xD8 ||| x.setWidth 8) :: encodeMem y m
  | .inAccImm w p => [opW 0xE4 w, p]
  | .outImmAcc w p => [opW 0xE6 w, p]
  | .callNear d => 0xE8 :: wordBytes d
  | .brNear d => 0xE9 :: wordBytes d
  | .brFar o s => 0xEA :: (wordBytes o ++ wordBytes s)
  | .brShort d => [0xEB, d]
  | .inAccDw w => [opW 0xEC w]
  | .outDwAcc w => [opW 0xEE w]
  | .buslock => [0xF0]
  | .repne => [0xF2]
  | .rep => [0xF3]
  | .halt => [0xF4]
  | .not1Cy => [0xF5]
  | .clr1Cy => [0xF8]
  | .set1Cy => [0xF9]
  | .di => [0xFA]
  | .ei => [0xFB]
  | .clr1Dir => [0xFC]
  | .set1Dir => [0xFD]
  | .test1Cl w rm => 0x0F :: opW 0x10 w :: encodeRM 0 rm
  | .test1Imm w rm n => 0x0F :: opW 0x18 w :: (encodeRM 0 rm ++ [n])
  | .clr1Cl w rm => 0x0F :: opW 0x12 w :: encodeRM 0 rm
  | .clr1Imm w rm n => 0x0F :: opW 0x1A w :: (encodeRM 0 rm ++ [n])
  | .set1Cl w rm => 0x0F :: opW 0x14 w :: encodeRM 0 rm
  | .set1Imm w rm n => 0x0F :: opW 0x1C w :: (encodeRM 0 rm ++ [n])
  | .not1Cl w rm => 0x0F :: opW 0x16 w :: encodeRM 0 rm
  | .not1Imm w rm n => 0x0F :: opW 0x1E w :: (encodeRM 0 rm ++ [n])
  | .add4s => [0x0F, 0x20]
  | .sub4s => [0x0F, 0x22]
  | .cmp4s => [0x0F, 0x26]
  | .rol4 rm => 0x0F :: 0x28 :: encodeRM 0 rm
  | .ror4 rm => 0x0F :: 0x2A :: encodeRM 0 rm
  | .insRegReg o l => 0x0F :: 0x31 :: encodeRM l.code (.reg o)
  | .extRegReg o l => 0x0F :: 0x33 :: encodeRM l.code (.reg o)
  | .insRegImm o n => 0x0F :: 0x39 :: (encodeRM 0 (.reg o) ++ [n])
  | .extRegImm o n => 0x0F :: 0x3B :: (encodeRM 0 (.reg o) ++ [n])
  | .brkxa v => [0x0F, 0xE0, v]
  | .retxa v => [0x0F, 0xF0, v]
  | .brkem v => [0x0F, 0xFF, v]
  | .calln v => [0xED, 0xED, v]
  | .retem => [0xED, 0xFD]
  | .undef63 => [0x63]
  | .undefD6 => [0xD6]
  | .undefF1 => [0xF1]
  | .undefC0 w md mem => [opW 0xC0 w, modMidMem md 6 mem]
  | .undefD0 w md mem => [opW 0xD0 w, modMidMem md 6 mem]
  | .undefD2 w md mem => [opW 0xD2 w, modMidMem md 6 mem]
  | .undefF6 w md mem => [opW 0xF6 w, modMidMem md 1 mem]
  | .undefFF md mem => [0xFF, modMidMem md 7 mem]
  | .undefFE md sub mem => [0xFE, modMidMem md sub mem]
  | .undef0F b => [0x0F, b]
  | .undefCvt w b => [opW 0xD4 w, b]

/-! ### The opcode table's words -/

/-- The `k` low-order bytes of `w`, the most significant first: spec/opcode_table.json numbers the bits of a row with
the FIRST byte of the instruction most significant (its `match`, `mask`, `fixed` and `fields` entries). -/
def tableBytes (w : Nat) : Nat → List Byte
  | 0 => []
  | k + 1 => BitVec.ofNat 8 (w / 256 ^ k) :: tableBytes w k

/-- The code map in which a row of the opcode table is read: 0F E0 and 0F F0 are rows of `cls = XA`, ED ED and ED FD
are rows of the emulation mode, every other row is in the native map of `cls = EMU`. -/
def tableMap (nbits w : Nat) : CodeMap :=
  if nbits = 16 ∧ (w = 0x0FE0 ∨ w = 0x0FF0) then .xaNative
  else if nbits = 16 ∧ (w = 0xEDED ∨ w = 0xEDFD) then .emulation
  else .emuNative

/-- The bytes the hardware stores for a table word: its bytes in order, then zeros up to the longest instruction (6
bytes, R70). -/
def tableInstrBytes (nbits w : Nat) : List Byte :=
  (tableBytes w (nbits / 8) ++ List.replicate 6 0).take 6

/-- The instruction the decoder reads from a word of the opcode table, every later byte zero. -/
def decodeTableWord (nbits w : Nat) : Option Instr :=
  match decode (tableMap nbits w) (tableInstrBytes nbits w) with
  | .ok (i, _) => some i
  | .error _ => none

end Sys2Proof
end

