-- ==== Sys2Proof/Machine/State.lean ====
section
/-! DEFINITION. The state of the machine as plain data (10_state.md), the reasons a step can stop, and the state right
after reset (R36, R440). -/

namespace Sys2Proof.Machine

/-- The program status word (R16). The other six bit positions are constants (R17), so they are no state: the word as
software sees it is `Psw.toWord`. -/
structure Psw where
  /-- MD, bit 15: 1 in the native mode, 0 in the emulation mode (R19). On V33A and V53A the bit is the constant 1. -/
  md : Bool
  /-- V, bit 11: overflow (R23). -/
  v : Bool
  /-- DIR, bit 10: block direction (R29). -/
  dir : Bool
  /-- IE, bit 9: maskable interrupt enable (R28). -/
  ie : Bool
  /-- BRK, bit 8: single step (R27). -/
  brk : Bool
  /-- S, bit 7: sign (R24). -/
  s : Bool
  /-- Z, bit 6: zero (R25). -/
  z : Bool
  /-- AC, bit 4: auxiliary carry (R22). -/
  ac : Bool
  /-- P, bit 2: parity (R26). -/
  p : Bool
  /-- CY, bit 0: carry (R21). -/
  cy : Bool
deriving DecidableEq, Repr

/-- The repeat prefixes (R141 to R144). -/
inductive Rep where
  /-- REP, REPE, REPZ. -/
  | rep
  /-- REPNE, REPNZ. -/
  | repne
  | repc
  | repnc
deriving DecidableEq, Repr

/-- The prefixes collected for the instruction that follows (R34, R87). -/
structure Prefixes where
  /-- The segment override in force, the last one written. -/
  override : Option SReg
  /-- The repeat prefix in force, the last one written. -/
  repeated : Option Rep
  /-- BUSLOCK is in force. -/
  locked : Bool
deriving DecidableEq, Repr

/-- No prefix. -/
def Prefixes.none : Prefixes := { override := Option.none, repeated := Option.none, locked := false }

/-- One access the machine makes to an output port (R50): the record of an `IoWrite`. -/
structure IoWrite where
  /-- The port number. -/
  port : Word
  /-- One byte at `port`, or the low-order byte there and the high-order byte at `port + 1`. -/
  width : Width
  /-- The value written; a byte access writes its low-order byte. -/
  value : Word
deriving DecidableEq, Repr

/-- Memory: the bytes that differ from `Memory.unlisted`, by physical address, addresses strictly rising (R40). -/
abbrev Memory := List Host.Cell

/-- What a byte that nothing has written reads as. DESIGN CHOICE; unsafe: the spec gives memory no contents after reset
(R36), and a proof may lean on this zero. -/
def Memory.unlisted : Byte := 0

/-- The machine. -/
structure State where
  /-- The model class (R2); the environment chooses it once. -/
  cls : Cls
  /-- AW, of halves AH and AL (R7, R8). -/
  aw : Word
  /-- CW, of halves CH and CL (R7, R8). -/
  cw : Word
  /-- DW, of halves DH and DL (R7, R8). -/
  dw : Word
  /-- BW, of halves BH and BL (R7, R8). -/
  bw : Word
  /-- SP, the stack pointer (R7, R10). -/
  sp : Word
  /-- BP, the base pointer (R7, R10). -/
  bp : Word
  /-- IX, the source index (R7, R11). -/
  ix : Word
  /-- IY, the destination index (R7, R11). -/
  iy : Word
  /-- DS1, data segment 1 (R12). -/
  ds1 : Word
  /-- PS, the program segment (R12). -/
  ps : Word
  /-- SS, the stack segment (R12). -/
  ss : Word
  /-- DS0, data segment 0 (R12). -/
  ds0 : Word
  /-- PC, the offset in PS of the next instruction byte (R14). While `exec` runs an instruction it is `nextPC`. -/
  pc : Word
  /-- PSW (R16). -/
  psw : Psw
  /-- MDWE, the write enable of MD (R19, R34); `cls = EMU` only. -/
  mdwe : Bool
  /-- The XAM register, whose bit 0 is XA (R32); `cls = XA` only. -/
  xam : Byte
  /-- The interrupt-inhibit window is open (R34, R412). -/
  inhibit : Bool
  /-- The CPU is in the HALT state (R34, R362). -/
  halted : Bool
  /-- The prefixes collected so far for the next instruction (R34). -/
  prefixes : Prefixes
  /-- The offset of the first byte, prefixes included, of the instruction that runs: what an interrupt between two
  elements of a repeated instruction, or during POLL, saves (R145, R364). The model's own. -/
  start : Word
  /-- The window was open when that instruction began (R412). The model's own. -/
  window : Bool
  /-- The instruction that has begun and not ended: a repeated block instruction between two elements, a waiting POLL
  (R145, R364). The model's own. -/
  inProgress : Option Instr
  /-- A single-step break fell due at a boundary in the emulation mode, where no source says how it is taken: the next
  step there is refused (R389, R410). The model's own. -/
  breakDue : Bool
  /-- An NMI request is pending (R34, R411); the environment sets it. -/
  nmi : Bool
  /-- A maskable request is pending, with its vector number (R34, R411, D42); the environment sets it. -/
  int : Option Byte
  /-- `nmi_vector`, the vector number of the non-maskable interrupt (R401, D41); the environment chooses it once. -/
  nmiVector : Byte
  /-- The POLL pin is active (R34, R364); the environment sets it. -/
  pollActive : Bool
  /-- The answers the environment has ready for the next I/O reads, first one first (R50). -/
  ioIn : List Word
  /-- The I/O writes made, the latest first (R50). -/
  ioOut : List IoWrite
  /-- The bytes stored since the last control transfer: the physical address of each, and `nextPC` of the instruction
  that stored it (R60). The model's own. -/
  stores : List (Nat × Word)
  /-- How many undefined values have been drawn (R30). The model's own. -/
  draws : Nat
  /-- The memory space (R40). -/
  mem : Memory
deriving DecidableEq, Repr

/-- The machine stops with no fault: no access faults (R48) and nothing traps for a mode (R430), so there is no
reason to name. Safe. -/
inductive Fault where
deriving DecidableEq, Repr

/-- Why the model has no successor state. Every case is safe: the model stops where the spec gives no behaviour. -/
inductive Refusal where
  /-- An arm of `exec` that has no meaning yet. Raised by no instruction of this model. -/
  | notModelled (mnemonic : String)
  /-- An undefined code, or one that the class does not have (R2, R95, U2). Raised by the undefined rows of the opcode
  table and by a mode instruction of the other class. -/
  | undefinedCode
  /-- The bytes at PS:PC are no instruction (R95, U2). Raised by the fetch. -/
  | undecodable (reason : Reject)
  /-- A byte of the instruction was stored within `queue_depth` bytes after the storing instruction, with no taken
  control transfer since (R60, R448, U14). Raised by the fetch. -/
  | staleFetch
  /-- Execution in the emulation mode of a code other than CALLN and RETEM (R381, U11). Raised by the fetch. -/
  | emulationMode
  /-- A hardware interrupt or the single-step break is due in the emulation mode (R389). Raised before the fetch. -/
  | emulationInterrupt
  /-- REPC or REPNC before a block instruction that compares nothing (R143, R144, U3). -/
  | repeatCondition
  /-- INS or EXT with a bit offset or a length operand above 15 (R160, U4). -/
  | bitFieldRange
  /-- ADD4S, SUB4S or CMP4S with CL = 0 or CL = 255 (R220, U7). -/
  | bcdLength
  /-- BUSLOCK in force for POLL (R364, R446, U10), whether or not other prefixes stand between the two (log 38). -/
  | lockedPoll
deriving DecidableEq, Repr

/-- PSW after reset: only MD is 1 (R20). -/
def Psw.reset : Psw :=
  { md := true, v := false, dir := false, ie := false, brk := false, s := false, z := false, ac := false, p := false,
    cy := false }

/-- The machine right after reset (R36, R440). DESIGN CHOICE, unsafe: the class EMU, the eight general registers zero,
bits 7 to 1 of XAM zero, no request pending, the POLL pin active, no I/O answer ready. PRESUMED, unsafe: `nmi_vector` has
its default 2 (R401, D41). -/
def State.reset : State :=
  { cls := .emu
    aw := 0, cw := 0, dw := 0, bw := 0, sp := 0, bp := 0, ix := 0, iy := 0
    ds1 := 0, ps := 0xFFFF, ss := 0, ds0 := 0
    pc := 0
    psw := Psw.reset
    mdwe := false
    xam := 0
    inhibit := false
    halted := false
    prefixes := Prefixes.none
    start := 0
    window := false
    inProgress := none
    breakDue := false
    nmi := false
    int := none
    nmiVector := 2
    pollActive := true
    ioIn := []
    ioOut := []
    stores := []
    draws := 0
    mem := [] }

end Sys2Proof.Machine
end

