-- ==== Sys2Proof/Machine/Flags.lean ====
section
/-! DEFINITION. The flag computations of R21 to R31 and the one-bit steps of the shifts and rotates (R276 to R282).
An operand has `n` bits, 8 or 16. -/

namespace Sys2Proof.Machine

variable {n : Nat}

/-- One bit as an `n`-bit value. -/
def bit (n : Nat) (c : Bool) : BitVec n := (BitVec.ofBool c).setWidth n

/-- Even parity: the number of 1 bits is even (R26). -/
def evenParity (b : Byte) : Bool := (List.range 8).countP b.getLsbD % 2 == 0

/-- `setSZP_N` (R31). P looks at the low-order 8 bits only. -/
def setSZP (f : Psw) (r : BitVec n) : Psw :=
  { f with s := r.msb, z := r == 0, p := evenParity (r.setWidth 8) }

/-- The result of `addflags_N(a, b, c)` (R31). -/
def addResult (a b : BitVec n) (c : Bool) : BitVec n := a + b + bit n c

/-- The flags of `addflags_N(a, b, c)` (R31). -/
def addFlags (f : Psw) (a b : BitVec n) (c : Bool) : Psw :=
  let r := addResult a b c
  { setSZP f r with
    cy := decide (2 ^ n ≤ a.toNat + b.toNat + c.toNat)
    ac := decide (16 ≤ a.toNat % 16 + b.toNat % 16 + c.toNat)
    v := a.msb == b.msb && r.msb != a.msb }

/-- The result of `subflags_N(a, b, c)` (R31). -/
def subResult (a b : BitVec n) (c : Bool) : BitVec n := a - b - bit n c

/-- The flags of `subflags_N(a, b, c)` (R31): CY and AC are borrows. -/
def subFlags (f : Psw) (a b : BitVec n) (c : Bool) : Psw :=
  let r := subResult a b c
  { setSZP f r with
    cy := decide (a.toNat < b.toNat + c.toNat)
    ac := decide (a.toNat % 16 < b.toNat % 16 + c.toNat)
    v := a.msb != b.msb && r.msb != a.msb }

/-- The flags `logicflags_N(r)` defines (R31); AC, which it leaves undefined, is drawn by `State.undefAC`. -/
def logicFlags (f : Psw) (r : BitVec n) : Psw :=
  { setSZP f r with cy := false, v := false }

/-- An operand and CY, which a one-bit step of a shift or rotate takes to an operand and CY (R271). -/
abbrev ShiftStep := (n : Nat) → BitVec n × Bool → BitVec n × Bool

/-- One step of SHL (R276). -/
def shlStep : ShiftStep := fun _ d => (d.1 <<< 1, d.1.msb)

/-- One step of SHR (R277). -/
def shrStep : ShiftStep := fun _ d => (d.1 >>> 1, d.1.getLsbD 0)

/-- One step of SHRA (R278). -/
def shraStep : ShiftStep := fun _ d => (d.1.sshiftRight 1, d.1.getLsbD 0)

/-- One step of ROL (R279): the top bit goes to bit 0 and to CY. -/
def rolStep : ShiftStep := fun n d => (d.1 <<< 1 ||| bit n d.1.msb, d.1.msb)

/-- One step of ROR (R280): bit 0 goes to the top bit and to CY. -/
def rorStep : ShiftStep := fun n d => (d.1 >>> 1 ||| bit n (d.1.getLsbD 0) <<< (n - 1), d.1.getLsbD 0)

/-- One step of ROLC (R281): a rotation to the left through CY. -/
def rolcStep : ShiftStep := fun n d => (d.1 <<< 1 ||| bit n d.2, d.1.msb)

/-- One step of RORC (R282): a rotation to the right through CY. -/
def rorcStep : ShiftStep := fun n d => (d.1 >>> 1 ||| bit n d.2 <<< (n - 1), d.1.getLsbD 0)

/-- The one-bit step taken `k` times (R271). -/
def iterateStep (f : ShiftStep) (k : Nat) (d : BitVec n × Bool) : BitVec n × Bool := Nat.repeat (f n) k d

/-- V of a one-bit shift or rotate: the most significant bit changed (R272). -/
def msbChanged (d r : BitVec n) : Bool := r.msb != d.msb

end Sys2Proof.Machine
end

