-- ==== Sys2Proof/Machine/Ops.lean ====
section
/-! DEFINITION. The named operations over memory, registers, PSW, the stack, the I/O space and undefined values, and
the entry and return sequences of interrupts and breaks. -/

namespace Sys2Proof.Machine

/-! ### Memory -/

/-- The byte at a physical address (R40, R54). -/
def Memory.read : Memory → Nat → Byte
  | [], _ => Memory.unlisted
  | (k, v) :: m, a => if k = a then v else Memory.read m a

/-- The memory with a byte listed at an address, in its place. -/
def Memory.insert (a : Nat) (b : Byte) : Memory → Memory
  | [] => [(a, b)]
  | (k, v) :: m =>
    if k < a then (k, v) :: Memory.insert a b m
    else if k = a then (a, b) :: m
    else (a, b) :: (k, v) :: m

/-- The memory with nothing listed at an address. -/
def Memory.erase (a : Nat) : Memory → Memory
  | [] => []
  | (k, v) :: m => if k = a then Memory.erase a m else (k, v) :: Memory.erase a m

/-- The memory after a byte is stored (R54): a byte that an unlisted address reads as is not listed. -/
def Memory.write (m : Memory) (a : Nat) (b : Byte) : Memory :=
  if b = Memory.unlisted then m.erase a else m.insert a b

/-- The canonical form: addresses strictly rising, no listed byte equal to what an unlisted address reads as. -/
abbrev Memory.wf (m : Memory) : Prop :=
  m.Pairwise (fun c d => c.1 < d.1) ∧ ∀ c ∈ m, c.2 ≠ Memory.unlisted

namespace State

/-! ### General and segment registers -/

/-- A 16-bit general register (R7). -/
def reg16 (s : State) : Reg → Word
  | .aw => s.aw
  | .cw => s.cw
  | .dw => s.dw
  | .bw => s.bw
  | .sp => s.sp
  | .bp => s.bp
  | .ix => s.ix
  | .iy => s.iy

/-- Write a 16-bit general register (R7). -/
def setReg16 (s : State) (r : Reg) (v : Word) : State :=
  match r with
  | .aw => { s with aw := v }
  | .cw => { s with cw := v }
  | .dw => { s with dw := v }
  | .bw => { s with bw := v }
  | .sp => { s with sp := v }
  | .bp => { s with bp := v }
  | .ix => { s with ix := v }
  | .iy => { s with iy := v }

/-- An 8-bit general register: the eight codes name AL, CL, DL, BL, AH, CH, DH, BH (R8). -/
def reg8 (s : State) : Reg → Byte
  | .aw => lowByte s.aw
  | .cw => lowByte s.cw
  | .dw => lowByte s.dw
  | .bw => lowByte s.bw
  | .sp => highByte s.aw
  | .bp => highByte s.cw
  | .ix => highByte s.dw
  | .iy => highByte s.bw

/-- Write an 8-bit general register; the other half of the word register keeps its value (R8). -/
def setReg8 (s : State) (r : Reg) (v : Byte) : State :=
  match r with
  | .aw => { s with aw := joinBytes v (highByte s.aw) }
  | .cw => { s with cw := joinBytes v (highByte s.cw) }
  | .dw => { s with dw := joinBytes v (highByte s.dw) }
  | .bw => { s with bw := joinBytes v (highByte s.bw) }
  | .sp => { s with aw := joinBytes (lowByte s.aw) v }
  | .bp => { s with cw := joinBytes (lowByte s.cw) v }
  | .ix => { s with dw := joinBytes (lowByte s.dw) v }
  | .iy => { s with bw := joinBytes (lowByte s.bw) v }

/-- `R(f)`: the register a field names at a width (R74). -/
def reg (s : State) : (w : Width) → Reg → BitVec w.bits
  | .byte, r => s.reg8 r
  | .word, r => s.reg16 r

/-- Write the register a field names at a width (R74). -/
def setReg (s : State) : (w : Width) → Reg → BitVec w.bits → State
  | .byte, r, v => s.setReg8 r v
  | .word, r, v => s.setReg16 r v

/-- AL. -/
abbrev al (s : State) : Byte := lowByte s.aw

/-- AH. -/
abbrev ah (s : State) : Byte := highByte s.aw

/-- CL. -/
abbrev cl (s : State) : Byte := lowByte s.cw

/-- A segment register (R12). -/
def sreg (s : State) : SReg → Word
  | .ds1 => s.ds1
  | .ps => s.ps
  | .ss => s.ss
  | .ds0 => s.ds0

/-- Load a segment register other than PS (R116, R340). -/
def setSreg (s : State) (r : DataSReg) (v : Word) : State :=
  match r with
  | .ds1 => { s with ds1 := v }
  | .ss => { s with ss := v }
  | .ds0 => { s with ds0 := v }

/-! ### Addresses and memory access -/

/-- XA = 1: the extended address mode is on (R32, R385). Only V33A and V53A have the register. -/
def xaOn (s : State) : Bool := s.cls == .xa && s.xam.getLsbD 0

/-- The physical address of a 20-bit logical address: itself, or its translation while XA = 1 (R40, R386). -/
def place (s : State) (l : BitVec 20) : Nat := if s.xaOn then Config.xaTranslate l else l.toNat

end State

/-- `(seg × 16 + off) mod 2^20` (R40). PRESUMED by the spec (D1). -/
def logical (seg off : Word) : BitVec 20 := seg.setWidth 20 * 16 + off.setWidth 20

namespace State

/-- `phys(seg, off)` (R40). -/
def addr (s : State) (seg off : Word) : Nat := s.place (logical seg off)

/-- Where the high-order byte of the word at an offset is: the next offset, and for offset FFFFH as
`word_wrap_in_segment` says (R41): offset 0000H of the segment, or the next physical address. DESIGN CHOICE, unsafe (log
10, log 20): which address is the next physical one. In the normal address mode it is the next modulo 2^20 (D1); while
XA = 1 it is the TRANSLATED address of the first byte plus 1, as in `readAbs`, not the translation of the next logical
address. -/
def addrHigh (s : State) (seg off : Word) : Nat :=
  if off = 0xFFFF && !Config.wordWrapInSegment then
    if s.xaOn then s.addr seg off + 1 else (logical seg off + 1).toNat
  else s.addr seg (off + 1)

/-- `MemRead(seg, off, 1)`. -/
def readByte (s : State) (seg off : Word) : Byte := s.mem.read (s.addr seg off)

/-- `MemRead(seg, off, 2)`: the low-order byte at `off` (R42). -/
def readWord (s : State) (seg off : Word) : Word :=
  joinBytes (s.mem.read (s.addr seg off)) (s.mem.read (s.addrHigh seg off))

/-- Store one byte at a physical address and record the store for R60. -/
def storeByte (s : State) (a : Nat) (b : Byte) : State :=
  { s with mem := s.mem.write a b, stores := (a, s.pc) :: s.stores }

/-- `MemWrite(seg, off, 1, v)`. -/
def writeByte (s : State) (seg off : Word) (v : Byte) : State := s.storeByte (s.addr seg off) v

/-- `MemWrite(seg, off, 2, v)`: the low-order byte at `off` (R42). -/
def writeWord (s : State) (seg off v : Word) : State :=
  (s.storeByte (s.addr seg off) (lowByte v)).storeByte (s.addrHigh seg off) (highByte v)

/-- `MemRead(seg, off, N/8)`. -/
def readMem (s : State) : (w : Width) → Word → Word → BitVec w.bits
  | .byte, seg, off => s.readByte seg off
  | .word, seg, off => s.readWord seg off

/-- `MemWrite(seg, off, N/8, v)`. -/
def writeMem (s : State) : (w : Width) → Word → Word → BitVec w.bits → State
  | .byte, seg, off, v => s.writeByte seg off v
  | .word, seg, off, v => s.writeWord seg off v

/-- `MemReadPhys(a, 2)` at a logical address with no segment register: the vector table (R47, R402, R387). -/
def readAbs (s : State) (l : BitVec 20) : Word :=
  joinBytes (s.mem.read (s.place l)) (s.mem.read (s.place l + 1))

/-! ### Undefined values -/

/-- Leave AC undefined (R30). -/
def undefAC (s : State) : State :=
  { s with psw := { s.psw with ac := Config.freeBit s.draws }, draws := s.draws + 1 }

/-- Leave CY undefined (R30). -/
def undefCY (s : State) : State :=
  { s with psw := { s.psw with cy := Config.freeBit s.draws }, draws := s.draws + 1 }

/-- Leave V undefined (R30). -/
def undefV (s : State) : State :=
  { s with psw := { s.psw with v := Config.freeBit s.draws }, draws := s.draws + 1 }

/-- Leave P undefined (R30). -/
def undefP (s : State) : State :=
  { s with psw := { s.psw with p := Config.freeBit s.draws }, draws := s.draws + 1 }

/-- Leave S undefined (R30). -/
def undefS (s : State) : State :=
  { s with psw := { s.psw with s := Config.freeBit s.draws }, draws := s.draws + 1 }

/-- Leave Z undefined (R30). -/
def undefZ (s : State) : State :=
  { s with psw := { s.psw with z := Config.freeBit s.draws }, draws := s.draws + 1 }

/-- Leave all six status flags undefined (R30). -/
def undefStatus (s : State) : State := s.undefAC.undefCY.undefV.undefP.undefS.undefZ

/-- An undefined byte, fresh (U5, U6, U8), and the machine that has drawn it. -/
def drawByte (s : State) : Byte × State := (Config.freeByte s.draws, { s with draws := s.draws + 1 })

/-- An undefined word, fresh (U5), and the machine that has drawn it. -/
def drawWord (s : State) : Word × State := (Config.freeWord s.draws, { s with draws := s.draws + 1 })

end State

/-! ### PSW as a word -/

/-- PSW as it is read (R16, R17): bits 14, 13, 12 and 1 are 1, bits 5 and 3 are 0, and bit 15 is 1 on V33A and
V53A. -/
def Psw.toWord (c : Cls) (f : Psw) : Word :=
  0x7002 ||| bit 16 (c == .xa || f.md) <<< 15 ||| bit 16 f.v <<< 11 ||| bit 16 f.dir <<< 10 ||| bit 16 f.ie <<< 9 |||
    bit 16 f.brk <<< 8 ||| bit 16 f.s <<< 7 ||| bit 16 f.z <<< 6 ||| bit 16 f.ac <<< 4 ||| bit 16 f.p <<< 2 |||
    bit 16 f.cy

/-- The nine flags other than MD from a word (R341); the fixed positions are ignored (R17). -/
def Psw.load (f : Psw) (w : Word) : Psw :=
  { f with
    v := w.getLsbD 11, dir := w.getLsbD 10, ie := w.getLsbD 9, brk := w.getLsbD 8, s := w.getLsbD 7,
    z := w.getLsbD 6, ac := w.getLsbD 4, p := w.getLsbD 2, cy := w.getLsbD 0 }

/-- The five flags of the low-order byte of PSW from a byte (R122). -/
def Psw.loadLow (f : Psw) (b : Byte) : Psw :=
  { f with s := b.getLsbD 7, z := b.getLsbD 6, ac := b.getLsbD 4, p := b.getLsbD 2, cy := b.getLsbD 0 }

namespace State

/-- PSW as a word. -/
def pswWord (s : State) : Word := s.psw.toWord s.cls

/-- POP PSW and RETI: MD is restored only where the class has it and it is write-enabled (R19, R341, R355). -/
def loadPsw (s : State) (w : Word) : State :=
  let md := if s.cls == .emu && s.mdwe then w.getLsbD 15 else s.psw.md
  { s with psw := { s.psw.load w with md := md } }

/-! ### The stack and control transfer -/

/-- `push16(v)` (R290). -/
def push16 (s : State) (v : Word) : State :=
  let s := { s with sp := s.sp - 2 }
  s.writeWord s.ss s.sp v

/-- `pop16()` (R291). -/
def pop16 (s : State) : Word × State := (s.readWord s.ss s.sp, { s with sp := s.sp + 2 })

/-- A taken control transfer: PC is written and the instruction queue is emptied (R14, R60). -/
def jump (s : State) (target : Word) : State := { s with pc := target, stores := [] }

/-- A taken branch with a displacement from `nextPC` (R81). -/
def branch (s : State) (disp : Word) : State := s.jump (s.pc + disp)

/-! ### The I/O space -/

/-- `IoRead(port, N/8)` (R50): the next answer the environment has ready, or one it has not fixed. -/
def ioRead (s : State) (w : Width) (port : Word) : BitVec w.bits × State :=
  match s.ioIn with
  | v :: rest => (v.setWidth w.bits, { s with ioIn := rest })
  | [] => ((Config.ioAnswer s.draws port).setWidth w.bits, { s with draws := s.draws + 1 })

/-- `IoWrite(port, N/8, v)` (R50): the write is recorded. -/
def ioWrite (s : State) (w : Width) (port : Word) (v : BitVec w.bits) : State :=
  { s with ioOut := { port := port, width := w, value := v.setWidth 16 } :: s.ioOut }

/-! ### Interrupts and breaks -/

/-- The logical address of vector `n` (R402). -/
def vectorAddr (n : Byte) : BitVec 20 := n.setWidth 20 * 4

/-- The offset word of vector `n` (R402). -/
def vectorOffset (s : State) (n : Byte) : Word := s.readAbs (vectorAddr n)

/-- The segment word of vector `n` (R402). -/
def vectorSegment (s : State) (n : Byte) : Word := s.readAbs (vectorAddr n + 2)

/-- IE and BRK are reset when service starts (R27, R28). -/
def maskInterrupts (s : State) : State := { s with psw := { s.psw with ie := false, brk := false } }

/-- TAKING AN INTERRUPT OR BREAK: `BreakSeq(n)` with a saved PC (R350, R403), for every cause (D43). The vector is
read first; PSW, PS and the saved PC are pushed; IE and BRK are reset after PSW is pushed; PS:PC becomes the vector. -/
def breakSeq (s : State) (n : Byte) (saved : Word) : State :=
  let offset := s.vectorOffset n
  let segment := s.vectorSegment n
  let s := (s.push16 s.pswWord).maskInterrupts
  let s := s.push16 s.ps
  let s := { s with ps := segment }
  (s.push16 saved).jump offset

/-- RETURNING FROM IT: PC, PS and PSW are popped, and PSW is loaded by `load` (R355, R383, R415). -/
def returnSeq (s : State) (load : State → Word → State) : State :=
  let (pc, s) := s.pop16
  let (ps, s) := s.pop16
  let (w, s) := s.pop16
  let s := load { s with ps := ps } w
  s.jump pc

/-- The window of R412 is open until the next instruction. -/
def openWindow (s : State) : State := { s with inhibit := true }

end State

end Sys2Proof.Machine
end

