-- ==== Sys2Proof/Machine/Operands.lean ====
section
/-! DEFINITION. Operands: effective addresses, their segments, register-or-memory operands (R45, R46, R76), and the
operand forms that several instructions share (R180, R250, R260, R270). -/

namespace Sys2Proof.Machine

/-- What a meaning answers. -/
abbrev Result := Host.Outcome State Fault Refusal

namespace State

/-! ### Effective addresses -/

/-- The sum of the address registers a `mem` field names (R76). -/
def baseValue (s : State) : Base → Word
  | .bwIx => s.bw + s.ix
  | .bwIy => s.bw + s.iy
  | .bpIx => s.bp + s.ix
  | .bpIy => s.bp + s.iy
  | .ix => s.ix
  | .iy => s.iy
  | .bp => s.bp
  | .bw => s.bw

/-- `EA`, the offset of a memory operand, modulo 2^16 (R76). -/
def ea (s : State) : MemArg → Word
  | .direct a => a
  | .based b => s.baseValue b
  | .disp8 b d => s.baseValue b + sext16 d
  | .disp16 b d => s.baseValue b + d

end State

/-- The address registers use BP. -/
def usesBp : Base → Bool
  | .bpIx | .bpIy | .bp => true
  | _ => false

/-- The default segment of a memory operand: SS when BP is a base, else DS0 (R45). PRESUMED by the spec (D2). -/
def defaultSeg : MemArg → SReg
  | .direct _ => .ds0
  | .based b | .disp8 b _ | .disp16 b _ => if usesBp b then .ss else .ds0

namespace State

/-- A default segment register or the one that an override names (R46). -/
def segOr (s : State) (d : SReg) : Word := s.sreg (s.prefixes.override.getD d)

/-- `EAseg`, the segment value of a memory operand (R45, R46). -/
def eaSeg (s : State) (m : MemArg) : Word := s.segOr (defaultSeg m)

/-- The segment value of a source block, BCD source string, EXT field, TRANS table or direct address: DS0 unless
overridden (R46, R47). -/
def srcSeg (s : State) : Word := s.segOr .ds0

/-! ### Register-or-memory operands -/

/-- The memory operand at `EAseg:EA`. -/
def readEA (s : State) (w : Width) (m : MemArg) : BitVec w.bits := s.readMem w (s.eaSeg m) (s.ea m)

/-- Write the memory operand at `EAseg:EA`. -/
def writeEA (s : State) (w : Width) (m : MemArg) (v : BitVec w.bits) : State := s.writeMem w (s.eaSeg m) (s.ea m) v

/-- The high-order word of a 32-bit memory operand, at `EA + 2` modulo 2^16 (R42). -/
def readEAHigh (s : State) (m : MemArg) : Word := s.readWord (s.eaSeg m) (s.ea m + 2)

/-- The value of a register-or-memory operand. -/
def readRM (s : State) (w : Width) : RM → BitVec w.bits
  | .reg r => s.reg w r
  | .mem m => s.readEA w m

/-- Write a register-or-memory operand. -/
def writeRM (s : State) (w : Width) (o : RM) (v : BitVec w.bits) : State :=
  match o with
  | .reg r => s.setReg w r v
  | .mem m => s.writeEA w m v

end State

/-! ### The six operand forms (R180, R250) -/

/-- The computation of a two-operand instruction: from destination and source to the result and the machine with the
flags written. -/
abbrev BinOp := (n : Nat) → BitVec n → BitVec n → State → BitVec n × State

/-- `mem, reg`, and by its alias `reg', reg`: read, compute, write the flags, write the destination. -/
def binRmReg (f : BinOp) (w : Width) (dst : RM) (src : Reg) (s : State) : State :=
  let (v, s) := f w.bits (s.readRM w dst) (s.reg w src) s
  s.writeRM w dst v

/-- `reg, mem` and `reg, reg'`. -/
def binRegRm (f : BinOp) (w : Width) (dst : Reg) (src : RM) (s : State) : State :=
  let (v, s) := f w.bits (s.reg w dst) (s.readRM w src) s
  s.setReg w dst v

/-- A destination with an immediate of a given width. -/
def binRmVal (f : BinOp) (w : Width) (dst : RM) (imm : BitVec w.bits) (s : State) : State :=
  let (v, s) := f w.bits (s.readRM w dst) imm s
  s.writeRM w dst v

/-- `reg, imm` and `mem, imm` of the Imm group: 83H sign-extends its byte (R78). -/
def binRmImm (f : BinOp) (dst : RM) (imm : ImmS) (s : State) : State :=
  match imm with
  | .byte80 v => binRmVal f .byte dst v s
  | .word81 v => binRmVal f .word dst v s
  | .byte82 v => binRmVal f .byte dst v s
  | .sext83 v => binRmVal f .word dst (sext16 v) s

/-- `acc, imm`: the accumulator is AL or AW. -/
def binAccImm (f : BinOp) (imm : Imm) (s : State) : State :=
  match imm with
  | .byte v => binRmVal f .byte (.reg .aw) v s
  | .word v => binRmVal f .word (.reg .aw) v s

/-- `mem, reg` of an instruction that writes no destination (CMP, TEST). -/
def tstRmReg (f : BinOp) (w : Width) (dst : RM) (src : Reg) (s : State) : State :=
  (f w.bits (s.readRM w dst) (s.reg w src) s).2

/-- `reg, mem` of an instruction that writes no destination. -/
def tstRegRm (f : BinOp) (w : Width) (dst : Reg) (src : RM) (s : State) : State :=
  (f w.bits (s.reg w dst) (s.readRM w src) s).2

/-- An operand with an immediate of a given width, no destination written. -/
def tstRmVal (f : BinOp) (w : Width) (dst : RM) (imm : BitVec w.bits) (s : State) : State :=
  (f w.bits (s.readRM w dst) imm s).2

/-- `reg, imm` and `mem, imm` of the Imm group, no destination written. -/
def tstRmImmS (f : BinOp) (dst : RM) (imm : ImmS) (s : State) : State :=
  match imm with
  | .byte80 v => tstRmVal f .byte dst v s
  | .word81 v => tstRmVal f .word dst v s
  | .byte82 v => tstRmVal f .byte dst v s
  | .sext83 v => tstRmVal f .word dst (sext16 v) s

/-- `reg, imm` and `mem, imm` without an s bit, no destination written. -/
def tstRmImm (f : BinOp) (dst : RM) (imm : Imm) (s : State) : State :=
  match imm with
  | .byte v => tstRmVal f .byte dst v s
  | .word v => tstRmVal f .word dst v s

/-! ### The computations -/

/-- ADD (R181). -/
def addOp : BinOp := fun _ a b s => (addResult a b false, { s with psw := addFlags s.psw a b false })

/-- ADDC: CY is read before the flags are written (R182). -/
def addcOp : BinOp := fun _ a b s => (addResult a b s.psw.cy, { s with psw := addFlags s.psw a b s.psw.cy })

/-- SUB and CMP (R183, R185). -/
def subOp : BinOp := fun _ a b s => (subResult a b false, { s with psw := subFlags s.psw a b false })

/-- SUBC: CY is read before the flags are written (R184). -/
def subcOp : BinOp := fun _ a b s => (subResult a b s.psw.cy, { s with psw := subFlags s.psw a b s.psw.cy })

/-- A logical operation with result `r`: AC is left undefined (R31). -/
def logicOp {n : Nat} (r : BitVec n) (s : State) : BitVec n × State :=
  (r, ({ s with psw := logicFlags s.psw r } : State).undefAC)

/-- AND and TEST (R251, R256). -/
def andOp : BinOp := fun _ a b s => logicOp (a &&& b) s

/-- OR (R252). -/
def orOp : BinOp := fun _ a b s => logicOp (a ||| b) s

/-- XOR (R253). -/
def xorOp : BinOp := fun _ a b s => logicOp (a ^^^ b) s

/-! ### Shifts and rotates (R270 to R275) -/

/-- Which flags besides CY and V a shift or rotate writes. -/
inductive ShiftKind where
  /-- SHL, SHR, SHRA: P, S, Z from the result, AC undefined (R274). -/
  | shift
  /-- ROL, ROR, ROLC, RORC: none (R275). -/
  | rotate
deriving DecidableEq, Repr

/-- The flags of a shift by one or more steps other than V: CY the last bit moved out, and for a shift P, S, Z of the
result and AC undefined. -/
def shiftFlags {n : Nat} (k : ShiftKind) (r : BitVec n × Bool) (s : State) : State :=
  let s := { s with psw := { s.psw with cy := r.2 } }
  match k with
  | .shift => ({ s with psw := setSZP s.psw r.1 } : State).undefAC
  | .rotate => s

/-- The form with count 1: V says whether the most significant bit changed (R272). -/
def shiftOne (f : ShiftStep) (k : ShiftKind) (w : Width) (dst : RM) (s : State) : State :=
  let d := s.readRM w dst
  let r := f w.bits (d, s.psw.cy)
  let s := shiftFlags k r s
  let s := { s with psw := { s.psw with v := msbChanged d r.1 } }
  s.writeRM w dst r.1

/-- The flags after a count of 0: every flag the instruction's table marks is arbitrary (R273). -/
def zeroCountFlags (k : ShiftKind) (s : State) : State :=
  match k with
  | .shift => s.undefStatus
  | .rotate => s.undefCY.undefV

/-- The forms with a count in CL or an immediate byte: the step is repeated, V is undefined (R271, R272, R273). -/
def shiftMany (f : ShiftStep) (k : ShiftKind) (w : Width) (dst : RM) (count : Byte) (s : State) : State :=
  let r := iterateStep f count.toNat (s.readRM w dst, s.psw.cy)
  let s := if count = 0 then zeroCountFlags k s else (shiftFlags k r s).undefV
  s.writeRM w dst r.1

/-! ### Bit numbers (R260) -/

/-- The valid low-order bits of a bit number: 3 for an 8-bit operand, 4 for a 16-bit operand (R84, R260). -/
def bitNumber (w : Width) (b : Byte) : Nat := b.toNat % w.bits

/-- The mask with bit `k` alone. -/
def bitMask (n k : Nat) : BitVec n := 1#n <<< k

/-- A bit instruction that reads its operand once and writes it once (R260); no flag changes. -/
def bitRm (f : (n : Nat) → BitVec n → Nat → BitVec n) (w : Width) (dst : RM) (number : Byte) (s : State) : State :=
  s.writeRM w dst (f w.bits (s.readRM w dst) (bitNumber w number))

end Sys2Proof.Machine
end

