-- ==== Sys2Proof/Machine/Arithmetic.lean ====
section
/-! DEFINITION. ADD, ADDC, SUB, SUBC, CMP, INC, DEC, NEG, NOT, MULU, MUL, DIVU and DIV (43_arithmetic.md). -/

namespace Sys2Proof.Machine

/-! ### Add, subtract, compare: the six operand forms (R180) -/

/-- ADD mem, reg and its register alias (R181). -/
def execAddRmReg (w : Width) (dst : RM) (src : Reg) (s : State) : Result := .next (binRmReg addOp w dst src s)

/-- ADD reg, mem and ADD reg, reg' (R181). -/
def execAddRegRm (w : Width) (dst : Reg) (src : RM) (s : State) : Result := .next (binRegRm addOp w dst src s)

/-- ADD acc, imm (R181). -/
def execAddAccImm (imm : Imm) (s : State) : Result := .next (binAccImm addOp imm s)

/-- ADD reg, imm and ADD mem, imm (R181). -/
def execAddRmImm (dst : RM) (imm : ImmS) (s : State) : Result := .next (binRmImm addOp dst imm s)

/-- ADDC mem, reg and its register alias (R182). -/
def execAddcRmReg (w : Width) (dst : RM) (src : Reg) (s : State) : Result := .next (binRmReg addcOp w dst src s)

/-- ADDC reg, mem and ADDC reg, reg' (R182). -/
def execAddcRegRm (w : Width) (dst : Reg) (src : RM) (s : State) : Result := .next (binRegRm addcOp w dst src s)

/-- ADDC acc, imm (R182). -/
def execAddcAccImm (imm : Imm) (s : State) : Result := .next (binAccImm addcOp imm s)

/-- ADDC reg, imm and ADDC mem, imm (R182). -/
def execAddcRmImm (dst : RM) (imm : ImmS) (s : State) : Result := .next (binRmImm addcOp dst imm s)

/-- SUB mem, reg and its register alias (R183). -/
def execSubRmReg (w : Width) (dst : RM) (src : Reg) (s : State) : Result := .next (binRmReg subOp w dst src s)

/-- SUB reg, mem and SUB reg, reg' (R183). -/
def execSubRegRm (w : Width) (dst : Reg) (src : RM) (s : State) : Result := .next (binRegRm subOp w dst src s)

/-- SUB acc, imm (R183). -/
def execSubAccImm (imm : Imm) (s : State) : Result := .next (binAccImm subOp imm s)

/-- SUB reg, imm and SUB mem, imm (R183). -/
def execSubRmImm (dst : RM) (imm : ImmS) (s : State) : Result := .next (binRmImm subOp dst imm s)

/-- SUBC mem, reg and its register alias (R184). -/
def execSubcRmReg (w : Width) (dst : RM) (src : Reg) (s : State) : Result := .next (binRmReg subcOp w dst src s)

/-- SUBC reg, mem and SUBC reg, reg' (R184). -/
def execSubcRegRm (w : Width) (dst : Reg) (src : RM) (s : State) : Result := .next (binRegRm subcOp w dst src s)

/-- SUBC acc, imm (R184). -/
def execSubcAccImm (imm : Imm) (s : State) : Result := .next (binAccImm subcOp imm s)

/-- SUBC reg, imm and SUBC mem, imm (R184). -/
def execSubcRmImm (dst : RM) (imm : ImmS) (s : State) : Result := .next (binRmImm subcOp dst imm s)

/-- CMP mem, reg: the memory operand is the minuend (R185). -/
def execCmpRmReg (w : Width) (dst : RM) (src : Reg) (s : State) : Result := .next (tstRmReg subOp w dst src s)

/-- CMP reg, mem and CMP reg, reg': the register named by `reg` is the minuend (R185). -/
def execCmpRegRm (w : Width) (dst : Reg) (src : RM) (s : State) : Result := .next (tstRegRm subOp w dst src s)

/-- CMP acc, imm (R185). -/
def execCmpAccImm (imm : Imm) (s : State) : Result := .next (tstRmImm subOp (.reg .aw) imm s)

/-- CMP reg, imm and CMP mem, imm (R185). -/
def execCmpRmImm (dst : RM) (imm : ImmS) (s : State) : Result := .next (tstRmImmS subOp dst imm s)

/-! ### Increment, decrement, complement -/

/-- `dst + 1`; CY is unaffected (R186). -/
def incRM (w : Width) (dst : RM) (s : State) : State :=
  let d := s.readRM w dst
  let s := { s with psw := { addFlags s.psw d 1 false with cy := s.psw.cy } }
  s.writeRM w dst (addResult d 1 false)

/-- `dst − 1`; CY is unaffected (R187). -/
def decRM (w : Width) (dst : RM) (s : State) : State :=
  let d := s.readRM w dst
  let s := { s with psw := { subFlags s.psw d 1 false with cy := s.psw.cy } }
  s.writeRM w dst (subResult d 1 false)

/-- INC reg16, the one-byte form (R186). -/
def execIncReg (dst : Reg) (s : State) : Result := .next (incRM .word (.reg dst) s)

/-- DEC reg16, the one-byte form (R187). -/
def execDecReg (dst : Reg) (s : State) : Result := .next (decRM .word (.reg dst) s)

/-- INC reg8 and INC mem, and the two-byte alias for reg16 (R101, R186). -/
def execIncRm (w : Width) (dst : RM) (s : State) : Result := .next (incRM w dst s)

/-- DEC reg8 and DEC mem, and the two-byte alias for reg16 (R101, R187). -/
def execDecRm (w : Width) (dst : RM) (s : State) : Result := .next (decRM w dst s)

/-- NEG: the flags are those of `0 − dst` (R188). -/
def execNegRm (w : Width) (dst : RM) (s : State) : Result :=
  let d := s.readRM w dst
  let s := { s with psw := subFlags s.psw 0 d false }
  .next (s.writeRM w dst (subResult 0 d false))

/-- NOT: no flag changes (R189). -/
def execNotRm (w : Width) (dst : RM) (s : State) : Result := .next (s.writeRM w dst (~~~(s.readRM w dst)))

/-! ### Multiplication -/

/-- The flags of every multiplication: CY and V tell that the product does not fit, AC, P, S, Z are undefined (R190,
R191, R200). -/
def mulFlags (overflows : Bool) (s : State) : State :=
  ({ s with psw := { s.psw with cy := overflows, v := overflows } } : State).undefAC.undefP.undefS.undefZ

/-- MULU: the product goes to AW, or to DW and AW; CY and V tell that its high-order half is not 0 (R190). -/
def execMuluRm (w : Width) (src : RM) (s : State) : Result :=
  match w with
  | .byte =>
    let p := zext16 s.al * zext16 (s.readRM .byte src)
    .next (mulFlags (highByte p != 0) { s with aw := p })
  | .word =>
    let p : BitVec 32 := s.aw.setWidth 32 * (s.readRM .word src).setWidth 32
    .next (mulFlags (p.extractLsb' 16 16 != 0) { s with aw := p.setWidth 16, dw := p.extractLsb' 16 16 })

/-- MUL src: the signed product; CY and V tell that its high-order half is not the sign extension of the low-order
half (R191). -/
def execMulRm (w : Width) (src : RM) (s : State) : Result :=
  match w with
  | .byte =>
    let p := sext16 s.al * sext16 (s.readRM .byte src)
    .next (mulFlags (p != sext16 (lowByte p)) { s with aw := p })
  | .word =>
    let p : BitVec 32 := s.aw.signExtend 32 * (s.readRM .word src).signExtend 32
    .next (mulFlags (p != (p.setWidth 16).signExtend 32) { s with aw := p.setWidth 16, dw := p.extractLsb' 16 16 })

/-- `MUL dst, src1, src2`: the signed product of two words; its low-order word goes to `dst`, CY and V tell that it is
not representable as a signed word (R200, D24). -/
def mulThree (dst : Reg) (src : RM) (k : Word) (s : State) : State :=
  let p : BitVec 32 := (s.readRM .word src).signExtend 32 * k.signExtend 32
  mulFlags (p != (p.setWidth 16).signExtend 32) (s.setReg16 dst (p.setWidth 16))

/-- MUL reg16, reg16' or mem16, imm16 (R200). -/
def execMulRegRmImm16 (dst : Reg) (src : RM) (imm : Word) (s : State) : Result := .next (mulThree dst src imm s)

/-- MUL reg16, reg16' or mem16, imm8: the immediate is sign-extended (R78, R200). -/
def execMulRegRmImm8 (dst : Reg) (src : RM) (imm : Byte) (s : State) : Result :=
  .next (mulThree dst src (sext16 imm) s)

/-! ### Division -/

/-- The dividend of a division: AW, or DW and AW with DW high-order (R202, R203). -/
def State.dividend (s : State) : Width → BitVec 32
  | .byte => s.aw.setWidth 32
  | .word => s.dw.setWidth 32 <<< 16 ||| s.aw.setWidth 32

/-- The signed dividend (R203). -/
def State.signedDividend (s : State) : Width → Int
  | .byte => s.aw.toInt
  | .word => (s.dividend .word).toInt

/-- Quotient and remainder go to AL and AH, or to AW and DW (R202, R203). -/
def State.setQuotient (s : State) (w : Width) (q r : BitVec w.bits) : State :=
  match w with
  | .byte => { s with aw := joinBytes q r }
  | .word => { s with aw := q, dw := r }

/-- The divide error: AL and AH, or AW and DW, are undefined, and vector 0 is entered with the next instruction saved
(R201, D12). -/
def divideError (w : Width) (s : State) : State :=
  let s :=
    match w with
    | .byte =>
      let (q, s) := s.drawByte
      let (r, s) := s.drawByte
      s.setQuotient .byte q r
    | .word =>
      let (q, s) := s.drawWord
      let (r, s) := s.drawWord
      s.setQuotient .word q r
  s.breakSeq 0 s.pc

/-- DIVU: the divide error when the divisor is 0 or the quotient does not fit; all six flags are undefined (R202). -/
def execDivuRm (w : Width) (src : RM) (s : State) : Result :=
  let a := (s.dividend w).toNat
  let d := (s.readRM w src).toNat
  let s := s.undefStatus
  if d = 0 ∨ 2 ^ w.bits ≤ a / d then .next (divideError w s)
  else .next (s.setQuotient w (BitVec.ofNat w.bits (a / d)) (BitVec.ofNat w.bits (a % d)))

/-- DIV: the quotient is truncated toward zero, its legal range is −(2^(N−1) − 1) to 2^(N−1) − 1, and the remainder has
the sign of the dividend; all six flags are undefined (R203, D25). -/
def execDivRm (w : Width) (src : RM) (s : State) : Result :=
  let a := s.signedDividend w
  let d := (s.readRM w src).toInt
  let limit : Int := 2 ^ (w.bits - 1) - 1
  let s := s.undefStatus
  if d = 0 ∨ limit < a.tdiv d ∨ a.tdiv d < -limit then .next (divideError w s)
  else .next (s.setQuotient w (BitVec.ofInt w.bits (a.tdiv d)) (BitVec.ofInt w.bits (a.tmod d)))

end Sys2Proof.Machine
end

