-- ==== Sys2Proof/Machine/Bcd.lean ====
section
/-! DEFINITION. BCD strings, digit rotation, BCD adjustment and data conversion (44_bcd_conversion.md). -/

namespace Sys2Proof.Machine

/-! ### BCD strings (R220) -/

/-- The value of a packed BCD byte: ten times its high digit plus its low digit (R220 (d)). -/
def bcdValue (b : Byte) : Nat := 10 * (b.toNat / 16) + b.toNat % 16

/-- Both digits of a byte are at most 9 (R220 (g)). -/
def bcdValid (b : Byte) : Bool := b.toNat / 16 ≤ 9 && b.toNat % 16 ≤ 9

/-- The packed BCD byte of a value below 100. -/
def bcdByte (v : Nat) : Byte := BitVec.ofNat 8 (16 * (v / 10) + v % 10)

/-- Decimal addition of one byte: the result byte and the carry (R220 (d)). -/
def bcdAdd (d s : Byte) (c : Bool) : Byte × Bool :=
  let t := bcdValue d + bcdValue s + c.toNat
  (bcdByte (t % 100), decide (100 ≤ t))

/-- Decimal subtraction of one byte: the result byte and the borrow (R220 (d)). -/
def bcdSub (d s : Byte) (c : Bool) : Byte × Bool :=
  let t := bcdValue s + c.toNat
  (bcdByte ((bcdValue d + 100 - t) % 100), decide (bcdValue d < t))

/-- What a BCD string operation has done after some bytes: the machine, the carry or borrow, every result byte so far
00H, every digit so far valid. -/
structure BcdRun where
  machine : State
  carry : Bool
  zero : Bool
  valid : Bool

/-- Byte `i` of a BCD string operation: the source byte is read, then the destination byte, then the destination byte
is written if the operation stores (R220 (h)). -/
def bcdStep (f : Byte → Byte → Bool → Byte × Bool) (store : Bool) (r : BcdRun) (i : Nat) : BcdRun :=
  let s := r.machine
  let src := s.readByte s.srcSeg (s.ix + BitVec.ofNat 16 i)
  let dst := s.readByte s.ds1 (s.iy + BitVec.ofNat 16 i)
  let v := f dst src r.carry
  { machine := if store then s.writeByte s.ds1 (s.iy + BitVec.ofNat 16 i) v.1 else s
    carry := v.2
    zero := r.zero && v.1 == 0
    valid := r.valid && bcdValid src && bcdValid dst }

/-- The bytes of a string of `CL` digits: `(CL + 1) div 2` (R220 (b)). -/
def bcdBytes (s : State) : Nat := (s.cl.toNat + 1) / 2

/-- An undefined byte at byte `i` of the destination string (R220 (g), U8). -/
def bcdFreeByte (s : State) (i : Nat) : State :=
  let (b, s) := s.drawByte
  s.writeByte s.ds1 (s.iy + BitVec.ofNat 16 i) b

/-- ADD4S, SUB4S and CMP4S (R220 to R223): CY is the last carry or borrow, Z tells that every result byte is 00H, AC,
V, P and S are undefined. With an invalid digit anywhere the destination bytes, CY and Z are undefined (U8). A length
of 0 or 255 digits has no result (U7). -/
def bcdString (f : Byte → Byte → Bool → Byte × Bool) (store : Bool) (s : State) : Result :=
  if s.cl = 0 ∨ s.cl = 255 then .refused .bcdLength
  else
    let indices := List.range (bcdBytes s)
    let r := indices.foldl (bcdStep f store) { machine := s, carry := false, zero := true, valid := true }
    let s :=
      if r.valid then
        let m := r.machine
        { m with psw := { m.psw with cy := r.carry, z := r.zero } }
      else (if store then indices.foldl bcdFreeByte s else s).undefCY.undefZ
    .next s.undefAC.undefV.undefP.undefS

/-- ADD4S (R221). -/
def execAdd4s (s : State) : Result := bcdString bcdAdd true s

/-- SUB4S (R222). -/
def execSub4s (s : State) : Result := bcdString bcdSub true s

/-- CMP4S: SUB4S with nothing stored (R223). -/
def execCmp4s (s : State) : Result := bcdString bcdSub false s

/-! ### Digit rotation -/

/-- A byte of two digits. -/
def digits (high low : BitVec 4) : Byte := high.setWidth 8 <<< 4 ||| low.setWidth 8

/-- The high-order digit of a byte. -/
def highDigit (b : Byte) : BitVec 4 := b.extractLsb' 4 4

/-- The low-order digit of a byte. -/
def lowDigit (b : Byte) : BitVec 4 := b.extractLsb' 0 4

/-- ROL4 and ROR4 around their digit movement, which gives the new destination and the new ALL: AL's high-order digit
is undefined, and all of AL where the destination is AL itself (R224, R225, U6). No flag changes. -/
def rotateDigits (f : Byte → BitVec 4 → Byte × BitVec 4) (dst : RM) (s : State) : State :=
  let (free, t) := s.drawByte
  if dst = .reg .aw then t.setReg8 .aw free
  else
    let v := f (s.readRM .byte dst) (lowDigit s.al)
    let t := t.writeRM .byte dst v.1
    t.setReg8 .aw (digits (highDigit free) v.2)

/-- ROL4: the high digit goes to ALL, the low digit to the high digit, the old ALL to the low digit (R224). -/
def execRol4 (dst : RM) (s : State) : Result :=
  .next (rotateDigits (fun d a => (digits (lowDigit d) a, highDigit d)) dst s)

/-- ROR4: the low digit goes to ALL, the high digit to the low digit, the old ALL to the high digit (R225). -/
def execRor4 (dst : RM) (s : State) : Result :=
  .next (rotateDigits (fun d a => (digits a (highDigit d), lowDigit d)) dst s)

/-! ### BCD adjustment -/

/-- The low digit needs adjustment: it is above 9, or AC = 1 (R230 to R233). -/
def adjustLow (s : State) : Bool := decide (9 < s.al.toNat % 16) || s.psw.ac

/-- ADJ4A and ADJ4S: the two printed steps in order, the second seeing AL as the first left it (R230, R231, D27). -/
def adjustPacked (f : Byte → Byte → Byte) (s : State) : State :=
  let low := adjustLow s
  let a := if low then f s.al 0x06 else s.al
  let high := decide (0x9F < a.toNat) || s.psw.cy
  let a := if high then f a 0x60 else a
  ({ s.setReg8 .aw a with psw := setSZP { s.psw with ac := low, cy := high } a } : State).undefV

/-- ADJ4A (R230). -/
def execAdj4a (s : State) : Result := .next (adjustPacked (· + ·) s)

/-- ADJ4S (R231). -/
def execAdj4s (s : State) : Result := .next (adjustPacked (· - ·) s)

/-- ADJBA and ADJBS: AL by 6 and AH by 1 when the low digit needs it, then AL's high digit is cleared; AC and CY tell
that it did, V, P, S and Z are undefined (R232, R233). -/
def adjustUnpacked (f : Byte → Byte → Byte) (s : State) : State :=
  let low := adjustLow s
  let a := if low then f s.al 0x06 else s.al
  let h := if low then f s.ah 0x01 else s.ah
  ({ s with aw := joinBytes (a &&& 0x0F) h, psw := { s.psw with ac := low, cy := low } } : State)
    |>.undefV.undefP.undefS.undefZ

/-- ADJBA (R232). -/
def execAdjba (s : State) : Result := .next (adjustUnpacked (· + ·) s)

/-- ADJBS (R233). -/
def execAdjbs (s : State) : Result := .next (adjustUnpacked (· - ·) s)

/-! ### Data conversion -/

/-- AL and AH are loaded, S, Z, P come from the final AL, AC, CY, V are undefined (R244, R245, D28). -/
def converted (al ah : Byte) (s : State) : State :=
  ({ s with aw := joinBytes al ah, psw := setSZP s.psw al } : State).undefAC.undefCY.undefV

/-- CVTBD: AH is AL divided by 10, AL the remainder (R244). -/
def execCvtbd (s : State) : Result :=
  .next (converted (BitVec.ofNat 8 (s.al.toNat % 10)) (BitVec.ofNat 8 (s.al.toNat / 10)) s)

/-- CVTDB: AL is ten times AH plus AL, AH is 0 (R245). -/
def execCvtdb (s : State) : Result := .next (converted (s.ah * 10 + s.al) 0 s)

/-- CVTBW: AL sign-extended into AH (R246). -/
def execCvtbw (s : State) : Result := .next { s with aw := sext16 s.al }

/-- CVTWL: AW sign-extended into DW (R247). -/
def execCvtwl (s : State) : Result := .next { s with dw := if s.aw.msb then 0xFFFF else 0x0000 }

end Sys2Proof.Machine
end

