-- ==== Sys2Proof/Machine/BitfieldIo.lean ====
section
/-! DEFINITION. EXT, INS, IN and OUT (42_bitfield_io.md). -/

namespace Sys2Proof.Machine

/-! ### Bit fields (R160) -/

/-- The 32-bit string of the four bytes from an offset, bit 0 of the first byte lowest (R160 (b)). -/
def State.bitString (s : State) (seg base : Word) : BitVec 32 :=
  (s.readByte seg base).setWidth 32 ||| (s.readByte seg (base + 1)).setWidth 32 <<< 8 |||
    (s.readByte seg (base + 2)).setWidth 32 <<< 16 ||| (s.readByte seg (base + 3)).setWidth 32 <<< 24

/-- The bits of a field of length operand `l` at bit offset `b` (R160 (a)). -/
def fieldMask (b l : Nat) : BitVec 32 := BitVec.ofNat 32 (2 ^ (l + 1) - 1) <<< b

/-- Byte `k` of a bit string. -/
def stringByte (m : BitVec 32) (k : Nat) : Byte := m.extractLsb' (8 * k) 8

/-- Write the bytes of a bit string that hold field bits, from the lowest up (R163). -/
def State.writeField (s : State) (seg base : Word) (mask value : BitVec 32) : State :=
  [0, 1, 2, 3].foldl
    (fun t k =>
      if stringByte mask k = 0 then t else t.writeByte seg (base + BitVec.ofNat 16 k) (stringByte value k)) s

/-- The new bit offset (R160 (c)). -/
def nextBitOffset (b l : Nat) : Byte := BitVec.ofNat 8 ((b + l + 1) % 16)

/-- The new index register: one word on when the bit offset passes 15 (R160 (c)). -/
def nextBitIndex (b l : Nat) (index : Word) : Word := if 15 < b + l + 1 then index + 2 else index

/-- EXT of the field of length operand `l` at the bit offset in a register (R161). The offset register is updated
after AW is loaded (R160 (f)). -/
def extField (offset : Reg) (l : Nat) (s : State) : Result :=
  let b := (s.reg8 offset).toNat
  if 15 < b ∨ 15 < l then .refused .bitFieldRange
  else
    let field := (s.bitString s.srcSeg s.ix &&& fieldMask b l) >>> b
    let ix := nextBitIndex b l s.ix
    let s := { s with aw := field.setWidth 16 }
    .next ({ s.setReg8 offset (nextBitOffset b l) with ix := ix } : State).undefStatus

/-- INS of the field of length operand `l` at the bit offset in a register (R163). -/
def insField (offset : Reg) (l : Nat) (s : State) : Result :=
  let b := (s.reg8 offset).toNat
  if 15 < b ∨ 15 < l then .refused .bitFieldRange
  else
    let mask := fieldMask b l
    let value := s.bitString s.ds1 s.iy &&& ~~~mask ||| s.aw.setWidth 32 <<< b &&& mask
    let iy := nextBitIndex b l s.iy
    let s := s.writeField s.ds1 s.iy mask value
    .next ({ s.setReg8 offset (nextBitOffset b l) with iy := iy } : State).undefStatus

/-- EXT reg8, reg8' (R161). -/
def execExtRegReg (offset length : Reg) (s : State) : Result := extField offset (s.reg8 length).toNat s

/-- EXT reg8, imm4: the low-order four bits of the immediate byte are the length operand (R84, R162). -/
def execExtRegImm (offset : Reg) (length : Byte) (s : State) : Result := extField offset (length.toNat % 16) s

/-- INS reg8, reg8' (R163). -/
def execInsRegReg (offset length : Reg) (s : State) : Result := insField offset (s.reg8 length).toNat s

/-- INS reg8, imm4 (R84, R164). -/
def execInsRegImm (offset : Reg) (length : Byte) (s : State) : Result := insField offset (length.toNat % 16) s

/-! ### I/O (R165) -/

/-- An input to the accumulator. -/
def inputTo (w : Width) (port : Word) (s : State) : State :=
  let (v, s) := s.ioRead w port
  s.setReg w .aw v

/-- An output of the accumulator. -/
def outputFrom (w : Width) (port : Word) (s : State) : State := s.ioWrite w port (s.reg w .aw)

/-- IN acc, imm8 (R166). -/
def execInAccImm (w : Width) (port : Byte) (s : State) : Result := .next (inputTo w (zext16 port) s)

/-- IN acc, DW (R167). -/
def execInAccDw (w : Width) (s : State) : Result := .next (inputTo w s.dw s)

/-- OUT imm8, acc (R170). -/
def execOutImmAcc (w : Width) (port : Byte) (s : State) : Result := .next (outputFrom w (zext16 port) s)

/-- OUT DW, acc (R171). -/
def execOutDwAcc (w : Width) (s : State) : Result := .next (outputFrom w s.dw s)

end Sys2Proof.Machine
end

