-- ==== Sys2Proof/Machine/BlockRepeat.lean ====
section
/-! DEFINITION. The repeat prefixes and the primitive block instructions (41_block_and_repeat.md), with the block I/O
instructions INM and OUTM (R168, R169). A repeated instruction runs one element and, while its loop goes on, stays in
progress: the step function takes up the next element, or an interrupt, from there (R145). -/

namespace Sys2Proof.Machine

/-- The instruction's address step after one element, by DIR (R140 (c)). -/
def State.stepIndex (s : State) (w : Width) (r : Word) : Word :=
  let d := BitVec.ofNat 16 w.bytes
  if s.psw.dir then r - d else r + d

/-- The prefix's test after a compare: true to go on (R141 to R144). -/
def Rep.goesOn (r : Rep) (f : Psw) : Bool :=
  match r with
  | .rep => f.z
  | .repne => !f.z
  | .repc => f.cy
  | .repnc => !f.cy

/-- The loop of R145 around one element of a block instruction. REPC and REPNC define nothing before an instruction
that compares nothing (U3); REPNE acts as REP there (D22). -/
def runBlock (i : Instr) (compares : Bool) (element : State → State) (s : State) : Result :=
  match s.prefixes.repeated with
  | none => .next (element s)
  | some r =>
    if (r == .repc || r == .repnc) && !compares then .refused .repeatCondition
    else if s.cw = 0 then .next s
    else
      let s := element s
      let s := { s with cw := s.cw - 1 }
      if s.cw != 0 && (!compares || r.goesOn s.psw) then .next { s with inProgress := some i } else .next s

/-! ### One element -/

/-- One element of MOVBK (R146). -/
def movbkElement (w : Width) (s : State) : State :=
  let ix := s.stepIndex w s.ix
  let iy := s.stepIndex w s.iy
  { s.writeMem w s.ds1 s.iy (s.readMem w s.srcSeg s.ix) with ix := ix, iy := iy }

/-- One element of CMPBK: the element at IX minus the element at IY (R147). -/
def cmpbkElement (w : Width) (s : State) : State :=
  { s with
    psw := subFlags s.psw (s.readMem w s.srcSeg s.ix) (s.readMem w s.ds1 s.iy) false
    ix := s.stepIndex w s.ix
    iy := s.stepIndex w s.iy }

/-- One element of CMPM: the accumulator minus the element at IY (R148). -/
def cmpmElement (w : Width) (s : State) : State :=
  { s with
    psw := subFlags s.psw (s.reg w .aw) (s.readMem w s.ds1 s.iy) false
    iy := s.stepIndex w s.iy }

/-- One element of LDM (R149). -/
def ldmElement (w : Width) (s : State) : State :=
  let ix := s.stepIndex w s.ix
  { s.setReg w .aw (s.readMem w s.srcSeg s.ix) with ix := ix }

/-- One element of STM (R150). -/
def stmElement (w : Width) (s : State) : State :=
  let iy := s.stepIndex w s.iy
  { s.writeMem w s.ds1 s.iy (s.reg w .aw) with iy := iy }

/-- One element of INM (R168). -/
def inmElement (w : Width) (s : State) : State :=
  let iy := s.stepIndex w s.iy
  let (v, s) := s.ioRead w s.dw
  { s.writeMem w s.ds1 s.iy v with iy := iy }

/-- One element of OUTM (R169). -/
def outmElement (w : Width) (s : State) : State :=
  let ix := s.stepIndex w s.ix
  { s.ioWrite w s.dw (s.readMem w s.srcSeg s.ix) with ix := ix }

/-! ### The instructions -/

/-- MOVBK (R146). -/
def execMovbk (w : Width) (s : State) : Result := runBlock (.movbk w) false (movbkElement w) s

/-- CMPBK (R147). -/
def execCmpbk (w : Width) (s : State) : Result := runBlock (.cmpbk w) true (cmpbkElement w) s

/-- CMPM (R148). -/
def execCmpm (w : Width) (s : State) : Result := runBlock (.cmpm w) true (cmpmElement w) s

/-- LDM (R149). -/
def execLdm (w : Width) (s : State) : Result := runBlock (.ldm w) false (ldmElement w) s

/-- STM (R150). -/
def execStm (w : Width) (s : State) : Result := runBlock (.stm w) false (stmElement w) s

/-- INM (R168). -/
def execInm (w : Width) (s : State) : Result := runBlock (.inm w) false (inmElement w) s

/-- OUTM (R169). -/
def execOutm (w : Width) (s : State) : Result := runBlock (.outm w) false (outmElement w) s

/-! ### The repeat prefixes -/

/-- A repeat prefix is in force for the next instruction, the last one written winning, and the window is open (R86,
R87, R141). -/
def State.setRepeat (s : State) (r : Rep) : State :=
  ({ s with prefixes := { s.prefixes with repeated := some r } } : State).openWindow

/-- REP, REPE, REPZ (R141). -/
def execRep (s : State) : Result := .next (s.setRepeat .rep)

/-- REPNE, REPNZ (R142). -/
def execRepne (s : State) : Result := .next (s.setRepeat .repne)

/-- REPC (R143). -/
def execRepc (s : State) : Result := .next (s.setRepeat .repc)

/-- REPNC (R144). -/
def execRepnc (s : State) : Result := .next (s.setRepeat .repnc)

end Sys2Proof.Machine
end

