-- ==== Sys2Proof/Machine/DataTransfer.lean ====
section
/-! DEFINITION. MOV, LDEA, TRANS and XCH (40_data_transfer.md). None writes a flag except `MOV PSW, AH` (R110). A
meaning begins with PC at `nextPC`. -/

namespace Sys2Proof.Machine

/-- MOV mem, reg, and the alias that moves to a register (R112, R111). -/
def execMovRmReg (w : Width) (dst : RM) (src : Reg) (s : State) : Result :=
  .next (s.writeRM w dst (s.reg w src))

/-- MOV reg, reg' (R111). -/
def execMovRegReg (w : Width) (dst src : Reg) (s : State) : Result :=
  .next (s.setReg w dst (s.reg w src))

/-- MOV reg, mem (R113). -/
def execMovRegMem (w : Width) (dst : Reg) (src : MemArg) (s : State) : Result :=
  .next (s.setReg w dst (s.readEA w src))

/-- MOV mem, imm (R114). -/
def execMovMemImm (dst : MemArg) (imm : Imm) (s : State) : Result :=
  match imm with
  | .byte v => .next (s.writeEA .byte dst v)
  | .word v => .next (s.writeEA .word dst v)

/-- MOV reg, imm (R115). -/
def execMovRegImm (dst : Reg) (imm : Imm) (s : State) : Result :=
  match imm with
  | .byte v => .next (s.setReg .byte dst v)
  | .word v => .next (s.setReg .word dst v)

/-- MOV sreg, reg16 and MOV sreg, mem16: the window opens (R116, R412). -/
def execMovSregRm (dst : DataSReg) (src : RM) (s : State) : Result :=
  .next (s.setSreg dst (s.readRM .word src)).openWindow

/-- MOV reg16, sreg and MOV mem16, sreg: the window opens (R117, R412). -/
def execMovRmSreg (dst : RM) (src : SReg) (s : State) : Result :=
  .next (s.writeRM .word dst (s.sreg src)).openWindow

/-- MOV acc, dmem: segment DS0 unless overridden (R80, R118). -/
def execMovAccDmem (w : Width) (addr : Word) (s : State) : Result :=
  .next (s.setReg w .aw (s.readMem w s.srcSeg addr))

/-- MOV dmem, acc (R80, R119). -/
def execMovDmemAcc (w : Width) (addr : Word) (s : State) : Result :=
  .next (s.writeMem w s.srcSeg addr (s.reg w .aw))

/-- The value MOV AH, PSW loads: the flags, and three undefined bits in positions 5, 3 and 1 (R121). -/
def ahFromPsw (f : Psw) (free : Byte) : Byte :=
  bit 8 f.s <<< 7 ||| bit 8 f.z <<< 6 ||| bit 8 (free.getLsbD 5) <<< 5 ||| bit 8 f.ac <<< 4 |||
    bit 8 (free.getLsbD 3) <<< 3 ||| bit 8 f.p <<< 2 ||| bit 8 (free.getLsbD 1) <<< 1 ||| bit 8 f.cy

/-- MOV AH, PSW (R121). -/
def execMovAhPsw (s : State) : Result :=
  let (free, s) := s.drawByte
  .next (s.setReg8 .sp (ahFromPsw s.psw free))

/-- MOV PSW, AH (R122). -/
def execMovPswAh (s : State) : Result :=
  .next { s with psw := s.psw.loadLow s.ah }

/-- MOV DS1, reg16, mem32: both words are read before either register is written, and the window opens (R120,
D20). -/
def execMovDs1RegMem (dst : Reg) (src : MemArg) (s : State) : Result :=
  .next ((s.setReg16 dst (s.readEA .word src)).setSreg .ds1 (s.readEAHigh src)).openWindow

/-- MOV DS0, reg16, mem32 (R120, D20). -/
def execMovDs0RegMem (dst : Reg) (src : MemArg) (s : State) : Result :=
  .next ((s.setReg16 dst (s.readEA .word src)).setSreg .ds0 (s.readEAHigh src)).openWindow

/-- LDEA: the effective address itself is loaded (R123). -/
def execLdea (dst : Reg) (src : MemArg) (s : State) : Result :=
  .next (s.setReg16 dst (s.ea src))

/-- TRANS: AL indexes the table at BW (R124, D21). -/
def execTrans (s : State) : Result :=
  .next (s.setReg8 .aw (s.readByte s.srcSeg (s.bw + zext16 s.al)))

/-- XCH reg, reg' (R125). -/
def execXchRegReg (w : Width) (a b : Reg) (s : State) : Result :=
  .next ((s.setReg w a (s.reg w b)).setReg w b (s.reg w a))

/-- XCH mem, reg: the address is computed once, before the exchange (R126). -/
def execXchMemReg (w : Width) (mem : MemArg) (reg : Reg) (s : State) : Result :=
  .next ((s.writeEA w mem (s.reg w reg)).setReg w reg (s.readEA w mem))

/-- XCH AW, reg16 (R127). -/
def execXchAwReg (reg : Reg) (s : State) : Result :=
  .next ((s.setReg16 .aw (s.reg16 reg)).setReg16 reg s.aw)

end Sys2Proof.Machine
end

