-- ==== Sys2Proof/Machine/InterruptCpu.lean ====
section
/-! DEFINITION. BRK, BRKV, CHKIND, RETI, the CPU control instructions, BUSLOCK and the segment override prefixes
(47_interrupt_cpu_control.md), and the undefined codes of the opcode table (R95). -/

namespace Sys2Proof.Machine

/-! ### Interrupt instructions -/

/-- BRK 3 (R351): the next instruction is saved (D35). -/
def execBrk3 (s : State) : Result := .next (s.breakSeq 3 s.pc)

/-- BRK imm8 (R352). -/
def execBrkImm (vector : Byte) (s : State) : Result := .next (s.breakSeq vector s.pc)

/-- BRKV: vector 4 when V = 1 (R353). -/
def execBrkv (s : State) : Result := .next (if s.psw.v then s.breakSeq 4 s.pc else s)

/-- CHKIND: vector 5 when the register is below the first limit or above the second, as signed words (R354, D36). -/
def execChkind (index : Reg) (limits : MemArg) (s : State) : Result :=
  let x := (s.reg16 index).toInt
  .next
    (if x < (s.readEA .word limits).toInt ∨ (s.readEAHigh limits).toInt < x then s.breakSeq 5 s.pc else s)

/-- RETI (R355). -/
def execReti (s : State) : Result := .next (s.returnSeq State.loadPsw)

/-! ### CPU control -/

/-- DI (R360). -/
def execDi (s : State) : Result := .next { s with psw := { s.psw with ie := false } }

/-- EI: the window opens, so a maskable interrupt is accepted after the next instruction at the earliest (R361,
D45). -/
def execEi (s : State) : Result := .next ({ s with psw := { s.psw with ie := true } } : State).openWindow

/-- HALT (R362). -/
def execHalt (s : State) : Result := .next { s with halted := true }

/-- POLL: it ends when the pin is active, and waits otherwise (R364, D37). BUSLOCK right before it is refused (R446, U10).
DESIGN CHOICE, safe (log 38): so is BUSLOCK with other prefixes between the two (F0H 26H 9BH), of which the spec does not
speak; the prefixes of an instruction have no order here (R87). -/
def execPoll (s : State) : Result :=
  if s.prefixes.locked then .refused .lockedPoll
  else .next (if s.pollActive then s else { s with inProgress := some .poll })

/-- NOP (R369). -/
def execNop (s : State) : Result := .next s

/-- FPO1 fp-op: the CPU executes nothing (R367, R370). -/
def execFpo1Reg (_x _y _z : BitVec 3) (s : State) : Result := .next s

/-- FPO1 fp-op, mem: the CPU starts a read cycle and ignores the data, which memory does not notice (R367, R370). -/
def execFpo1Mem (_x _y : BitVec 3) (_mem : MemArg) (s : State) : Result := .next s

/-- FPO2 fp-op: the CPU executes nothing (R367, R371). -/
def execFpo2Reg (_x : BitVec 1) (_y _z : BitVec 3) (s : State) : Result := .next s

/-- FPO2 fp-op, mem: the CPU starts a read cycle and ignores the data (R367, R371). -/
def execFpo2Mem (_x : BitVec 1) (_y : BitVec 3) (_mem : MemArg) (s : State) : Result := .next s

/-! ### Prefixes -/

/-- BUSLOCK: the bus is locked for the next instruction, and the window is open (R366). -/
def execBuslock (s : State) : Result :=
  .next ({ s with prefixes := { s.prefixes with locked := true } } : State).openWindow

/-- A segment override is in force for the next instruction, the last one written winning, and the window is open
(R87, R368). -/
def State.setOverride (s : State) (r : SReg) : State :=
  ({ s with prefixes := { s.prefixes with override := some r } } : State).openWindow

/-- DS1: (R368). -/
def execSegDs1 (s : State) : Result := .next (s.setOverride .ds1)

/-- PS: (R368). -/
def execSegPs (s : State) : Result := .next (s.setOverride .ps)

/-- SS: (R368). -/
def execSegSs (s : State) : Result := .next (s.setOverride .ss)

/-- DS0: (R368). -/
def execSegDs0 (s : State) : Result := .next (s.setOverride .ds0)

/-! ### Undefined codes (R95): the spec gives them no effect and no trap -/

/-- 63H. -/
def execUndef63 (_s : State) : Result := .refused .undefinedCode

/-- D6H. -/
def execUndefD6 (_s : State) : Result := .refused .undefinedCode

/-- F1H. -/
def execUndefF1 (_s : State) : Result := .refused .undefinedCode

/-- C0H or C1H with sub-code 110. -/
def execUndefC0 (_w : Width) (_md : BitVec 2) (_mem : BitVec 3) (_s : State) : Result := .refused .undefinedCode

/-- D0H or D1H with sub-code 110. -/
def execUndefD0 (_w : Width) (_md : BitVec 2) (_mem : BitVec 3) (_s : State) : Result := .refused .undefinedCode

/-- D2H or D3H with sub-code 110. -/
def execUndefD2 (_w : Width) (_md : BitVec 2) (_mem : BitVec 3) (_s : State) : Result := .refused .undefinedCode

/-- F6H or F7H with sub-code 001. -/
def execUndefF6 (_w : Width) (_md : BitVec 2) (_mem : BitVec 3) (_s : State) : Result := .refused .undefinedCode

/-- FFH with sub-code 111. -/
def execUndefFF (_md : BitVec 2) (_mem : BitVec 3) (_s : State) : Result := .refused .undefinedCode

/-- FEH with sub-codes 010 to 111. -/
def execUndefFE (_md : BitVec 2) (_sub _mem : BitVec 3) (_s : State) : Result := .refused .undefinedCode

/-- 0FH with a second byte that is a blank of Table C-4. -/
def execUndef0F (_second : Byte) (_s : State) : Result := .refused .undefinedCode

/-- D4H or D5H with a second byte other than 0AH. -/
def execUndefCvt (_w : Width) (_second : Byte) (_s : State) : Result := .refused .undefinedCode

end Sys2Proof.Machine
end

