-- ==== Sys2Proof/Machine/Logic.lean ====
section
/-! DEFINITION. AND, OR, XOR, TEST, the bit manipulation instructions, the shifts and the rotates
(45_logic_bit_shift.md). -/

namespace Sys2Proof.Machine

/-! ### Logical operations (R250) -/

/-- AND mem, reg and its register alias (R251). -/
def execAndRmReg (w : Width) (dst : RM) (src : Reg) (s : State) : Result := .next (binRmReg andOp w dst src s)

/-- AND reg, mem and AND reg, reg' (R251). -/
def execAndRegRm (w : Width) (dst : Reg) (src : RM) (s : State) : Result := .next (binRegRm andOp w dst src s)

/-- AND acc, imm (R251). -/
def execAndAccImm (imm : Imm) (s : State) : Result := .next (binAccImm andOp imm s)

/-- AND reg, imm and AND mem, imm (R251, R254). -/
def execAndRmImm (dst : RM) (imm : ImmS) (s : State) : Result := .next (binRmImm andOp dst imm s)

/-- OR mem, reg and its register alias (R252). -/
def execOrRmReg (w : Width) (dst : RM) (src : Reg) (s : State) : Result := .next (binRmReg orOp w dst src s)

/-- OR reg, mem and OR reg, reg' (R252). -/
def execOrRegRm (w : Width) (dst : Reg) (src : RM) (s : State) : Result := .next (binRegRm orOp w dst src s)

/-- OR acc, imm (R252). -/
def execOrAccImm (imm : Imm) (s : State) : Result := .next (binAccImm orOp imm s)

/-- OR reg, imm and OR mem, imm (R252, R254). -/
def execOrRmImm (dst : RM) (imm : ImmS) (s : State) : Result := .next (binRmImm orOp dst imm s)

/-- XOR mem, reg and its register alias (R253). -/
def execXorRmReg (w : Width) (dst : RM) (src : Reg) (s : State) : Result := .next (binRmReg xorOp w dst src s)

/-- XOR reg, mem and XOR reg, reg' (R253). -/
def execXorRegRm (w : Width) (dst : Reg) (src : RM) (s : State) : Result := .next (binRegRm xorOp w dst src s)

/-- XOR acc, imm (R253). -/
def execXorAccImm (imm : Imm) (s : State) : Result := .next (binAccImm xorOp imm s)

/-- XOR reg, imm and XOR mem, imm (R253, R254). -/
def execXorRmImm (dst : RM) (imm : ImmS) (s : State) : Result := .next (binRmImm xorOp dst imm s)

/-- TEST of a register or memory with a register: nothing is stored (R256). -/
def execTestRmReg (w : Width) (dst : RM) (src : Reg) (s : State) : Result := .next (tstRmReg andOp w dst src s)

/-- TEST acc, imm (R256). -/
def execTestAccImm (imm : Imm) (s : State) : Result := .next (tstRmImm andOp (.reg .aw) imm s)

/-- TEST reg, imm and TEST mem, imm (R256). -/
def execTestRmImm (dst : RM) (imm : Imm) (s : State) : Result := .next (tstRmImm andOp dst imm s)

/-! ### Bit manipulation (R260) -/

/-- TEST1: Z is the inverse of the bit, CY and V are reset, AC, P, S are undefined (R261). -/
def testBit (w : Width) (dst : RM) (number : Byte) (s : State) : State :=
  let z := !(s.readRM w dst).getLsbD (bitNumber w number)
  ({ s with psw := { s.psw with z := z, cy := false, v := false } } : State).undefAC.undefP.undefS

/-- The operand with one bit reset (R263). -/
def clearBit (n : Nat) (d : BitVec n) (k : Nat) : BitVec n := d &&& ~~~(bitMask n k)

/-- The operand with one bit set (R264). -/
def setBit (n : Nat) (d : BitVec n) (k : Nat) : BitVec n := d ||| bitMask n k

/-- The operand with one bit inverted (R262). -/
def invertBit (n : Nat) (d : BitVec n) (k : Nat) : BitVec n := d ^^^ bitMask n k

/-- TEST1 with the bit number in CL (R261). -/
def execTest1Cl (w : Width) (dst : RM) (s : State) : Result := .next (testBit w dst s.cl s)

/-- TEST1 with an immediate bit number (R261). -/
def execTest1Imm (w : Width) (dst : RM) (number : Byte) (s : State) : Result := .next (testBit w dst number s)

/-- CLR1 with the bit number in CL (R263). -/
def execClr1Cl (w : Width) (dst : RM) (s : State) : Result := .next (bitRm clearBit w dst s.cl s)

/-- CLR1 with an immediate bit number (R263). -/
def execClr1Imm (w : Width) (dst : RM) (number : Byte) (s : State) : Result := .next (bitRm clearBit w dst number s)

/-- SET1 with the bit number in CL (R264). -/
def execSet1Cl (w : Width) (dst : RM) (s : State) : Result := .next (bitRm setBit w dst s.cl s)

/-- SET1 with an immediate bit number (R264). -/
def execSet1Imm (w : Width) (dst : RM) (number : Byte) (s : State) : Result := .next (bitRm setBit w dst number s)

/-- NOT1 with the bit number in CL (R262). -/
def execNot1Cl (w : Width) (dst : RM) (s : State) : Result := .next (bitRm invertBit w dst s.cl s)

/-- NOT1 with an immediate bit number (R262). -/
def execNot1Imm (w : Width) (dst : RM) (number : Byte) (s : State) : Result := .next (bitRm invertBit w dst number s)

/-- NOT1 CY (R265). -/
def execNot1Cy (s : State) : Result := .next { s with psw := { s.psw with cy := !s.psw.cy } }

/-- CLR1 CY (R266). -/
def execClr1Cy (s : State) : Result := .next { s with psw := { s.psw with cy := false } }

/-- SET1 CY (R267). -/
def execSet1Cy (s : State) : Result := .next { s with psw := { s.psw with cy := true } }

/-- CLR1 DIR (R268). -/
def execClr1Dir (s : State) : Result := .next { s with psw := { s.psw with dir := false } }

/-- SET1 DIR (R269). -/
def execSet1Dir (s : State) : Result := .next { s with psw := { s.psw with dir := true } }

/-! ### Shifts and rotates (R270) -/

/-- ROL by 1 (R279). -/
def execRolOne (w : Width) (dst : RM) (s : State) : Result := .next (shiftOne rolStep .rotate w dst s)

/-- ROL by CL (R279). -/
def execRolCl (w : Width) (dst : RM) (s : State) : Result := .next (shiftMany rolStep .rotate w dst s.cl s)

/-- ROL by an immediate count (R279). -/
def execRolImm (w : Width) (dst : RM) (count : Byte) (s : State) : Result :=
  .next (shiftMany rolStep .rotate w dst count s)

/-- ROR by 1 (R280). -/
def execRorOne (w : Width) (dst : RM) (s : State) : Result := .next (shiftOne rorStep .rotate w dst s)

/-- ROR by CL (R280). -/
def execRorCl (w : Width) (dst : RM) (s : State) : Result := .next (shiftMany rorStep .rotate w dst s.cl s)

/-- ROR by an immediate count (R280). -/
def execRorImm (w : Width) (dst : RM) (count : Byte) (s : State) : Result :=
  .next (shiftMany rorStep .rotate w dst count s)

/-- ROLC by 1 (R281). -/
def execRolcOne (w : Width) (dst : RM) (s : State) : Result := .next (shiftOne rolcStep .rotate w dst s)

/-- ROLC by CL (R281). -/
def execRolcCl (w : Width) (dst : RM) (s : State) : Result := .next (shiftMany rolcStep .rotate w dst s.cl s)

/-- ROLC by an immediate count (R281). -/
def execRolcImm (w : Width) (dst : RM) (count : Byte) (s : State) : Result :=
  .next (shiftMany rolcStep .rotate w dst count s)

/-- RORC by 1 (R282). -/
def execRorcOne (w : Width) (dst : RM) (s : State) : Result := .next (shiftOne rorcStep .rotate w dst s)

/-- RORC by CL (R282). -/
def execRorcCl (w : Width) (dst : RM) (s : State) : Result := .next (shiftMany rorcStep .rotate w dst s.cl s)

/-- RORC by an immediate count (R282). -/
def execRorcImm (w : Width) (dst : RM) (count : Byte) (s : State) : Result :=
  .next (shiftMany rorcStep .rotate w dst count s)

/-- SHL by 1 (R276). -/
def execShlOne (w : Width) (dst : RM) (s : State) : Result := .next (shiftOne shlStep .shift w dst s)

/-- SHL by CL (R276). -/
def execShlCl (w : Width) (dst : RM) (s : State) : Result := .next (shiftMany shlStep .shift w dst s.cl s)

/-- SHL by an immediate count (R276). -/
def execShlImm (w : Width) (dst : RM) (count : Byte) (s : State) : Result :=
  .next (shiftMany shlStep .shift w dst count s)

/-- SHR by 1 (R277). -/
def execShrOne (w : Width) (dst : RM) (s : State) : Result := .next (shiftOne shrStep .shift w dst s)

/-- SHR by CL (R277). -/
def execShrCl (w : Width) (dst : RM) (s : State) : Result := .next (shiftMany shrStep .shift w dst s.cl s)

/-- SHR by an immediate count (R277). -/
def execShrImm (w : Width) (dst : RM) (count : Byte) (s : State) : Result :=
  .next (shiftMany shrStep .shift w dst count s)

/-- SHRA by 1 (R278). -/
def execShraOne (w : Width) (dst : RM) (s : State) : Result := .next (shiftOne shraStep .shift w dst s)

/-- SHRA by CL (R278). -/
def execShraCl (w : Width) (dst : RM) (s : State) : Result := .next (shiftMany shraStep .shift w dst s.cl s)

/-- SHRA by an immediate count (R278). -/
def execShraImm (w : Width) (dst : RM) (count : Byte) (s : State) : Result :=
  .next (shiftMany shraStep .shift w dst count s)

end Sys2Proof.Machine
end

