-- ==== Sys2Proof/Machine/ModeControl.lean ====
section
/-! DEFINITION. BRKEM, CALLN, RETEM, BRKXA and RETXA (48_mode_control.md). The code of one class is an undefined code
on the other (R2). -/

namespace Sys2Proof.Machine

/-- The entry sequence of BRKEM and CALLN: that of a break, but it changes MD (and MDWE) where a break resets IE and
BRK (R382, R384). -/
def modeCall (change : State → State) (vector : Byte) (s : State) : State :=
  let offset := s.vectorOffset vector
  let segment := s.vectorSegment vector
  let s := change (s.push16 s.pswWord)
  let s := s.push16 s.ps
  let s := { s with ps := segment }
  (s.push16 s.pc).jump offset

/-- BRKEM: MD is reset and write-enabled (R384). -/
def execBrkem (vector : Byte) (s : State) : Result :=
  match s.cls with
  | .emu => .next (modeCall (fun s => { s with psw := { s.psw with md := false }, mdwe := true }) vector s)
  | .xa => .refused .undefinedCode

/-- CALLN: MD is set (R382). -/
def execCalln (vector : Byte) (s : State) : Result :=
  match s.cls with
  | .emu => .next (modeCall (fun s => { s with psw := { s.psw with md := true } }) vector s)
  | .xa => .refused .undefinedCode

/-- RETEM: all ten flags, MD among them, come from the stack, and MD becomes write-disabled (R383). -/
def execRetem (s : State) : Result :=
  match s.cls with
  | .emu => .next (s.returnSeq fun s w => { s with psw := { s.psw.load w with md := w.getLsbD 15 }, mdwe := false })
  | .xa => .refused .undefinedCode

/-- The jump through a vector of BRKXA and RETXA: the vector is read in the address mode in force before, then XA is
written, then control goes there; nothing is pushed (R387, R388). -/
def addressModeJump (xa : Bool) (vector : Byte) (s : State) : State :=
  let offset := s.vectorOffset vector
  let segment := s.vectorSegment vector
  ({ s with xam := s.xam &&& 0xFE ||| bit 8 xa, ps := segment } : State).jump offset

/-- BRKXA: XA is set (R387). -/
def execBrkxa (vector : Byte) (s : State) : Result :=
  match s.cls with
  | .emu => .refused .undefinedCode
  | .xa => .next (addressModeJump true vector s)

/-- RETXA: XA is reset (R388). -/
def execRetxa (vector : Byte) (s : State) : Result :=
  match s.cls with
  | .emu => .refused .undefinedCode
  | .xa => .next (addressModeJump false vector s)

end Sys2Proof.Machine
end

