-- ==== Sys2Proof/Machine/StackControl.lean ====
section
/-! DEFINITION. PUSH, POP, PREPARE, DISPOSE, CALL, RET, BR and the conditional branches
(46_stack_control_transfer.md). None writes a flag except POP PSW. A meaning begins with PC at `nextPC`. -/

namespace Sys2Proof.Machine

/-! ### PUSH -/

/-- PUSH mem16: the operand is read before SP changes (R292). -/
def execPushMem (src : MemArg) (s : State) : Result := .next (s.push16 (s.readEA .word src))

/-- PUSH reg16: the register is read after SP is decremented, so PUSH SP stores the new SP (R293, R450). -/
def execPushReg (src : Reg) (s : State) : Result :=
  let s := { s with sp := s.sp - 2 }
  .next (s.writeWord s.ss s.sp (s.reg16 src))

/-- PUSH sreg (R294). -/
def execPushSreg (src : SReg) (s : State) : Result := .next (s.push16 (s.sreg src))

/-- PUSH PSW (R295). -/
def execPushPsw (s : State) : Result := .next (s.push16 s.pswWord)

/-- PUSH imm16 (R296). -/
def execPushImm16 (imm : Word) (s : State) : Result := .next (s.push16 imm)

/-- PUSH imm8: the immediate is sign-extended (R296). -/
def execPushImm8 (imm : Byte) (s : State) : Result := .next (s.push16 (sext16 imm))

/-- PUSH R: eight words, the SP slot receiving SP as it was before the instruction (R297). -/
def execPushR (s : State) : Result :=
  .next ([s.aw, s.cw, s.dw, s.bw, s.sp, s.bp, s.ix, s.iy].foldl State.push16 s)

/-! ### POP -/

/-- POP mem16 (R298). -/
def execPopMem (dst : MemArg) (s : State) : Result :=
  let (v, s) := s.pop16
  .next (s.writeEA .word dst v)

/-- POP reg16: SP is incremented first, then the register is loaded (R299). -/
def execPopReg (dst : Reg) (s : State) : Result :=
  let (v, s) := s.pop16
  .next (s.setReg16 dst v)

/-- POP sreg: the window opens (R340, R412). -/
def execPopSreg (dst : DataSReg) (s : State) : Result :=
  let (v, s) := s.pop16
  .next (s.setSreg dst v).openWindow

/-- POP PSW (R341). -/
def execPopPsw (s : State) : Result :=
  let (v, s) := s.pop16
  .next (s.loadPsw v)

/-- POP R: the slot of SP is skipped (R342). -/
def execPopR (s : State) : Result :=
  let word (k : Word) := s.readWord s.ss (s.sp + k)
  .next
    { s with
      iy := word 0, ix := word 2, bp := word 4, bw := word 8, dw := word 10, cw := word 12, aw := word 14
      sp := s.sp + 16 }

/-! ### PREPARE and DISPOSE -/

/-- One copy of a frame pointer: the word at SS:BP − 2 is pushed and BP moves to it (R343). -/
def copyFramePointer (s : State) : State :=
  let t := s.readWord s.ss (s.bp - 2)
  let s := s.push16 t
  { s with bp := s.bp - 2 }

/-- PREPARE (R343). -/
def execPrepare (size : Word) (level : Byte) (s : State) : Result :=
  let s := s.push16 s.bp
  let temp := s.sp
  let s := if level = 0 then s else (Nat.repeat copyFramePointer (level.toNat - 1) s).push16 temp
  .next { s with bp := temp, sp := s.sp - size }

/-- DISPOSE (R344). -/
def execDispose (s : State) : Result :=
  let (v, s) := ({ s with sp := s.bp } : State).pop16
  .next { s with bp := v }

/-! ### CALL -/

/-- A call within the segment: `nextPC` is pushed (R300). -/
def callNearTo (target : Word) (s : State) : State := (s.push16 s.pc).jump target

/-- A call to another segment: PS and then `nextPC` are pushed (R300, R304). -/
def callFarTo (segment offset : Word) (s : State) : State :=
  let s := s.push16 s.ps
  let s := { s with ps := segment }
  (s.push16 s.pc).jump offset

/-- CALL near-proc (R301). -/
def execCallNear (disp : Word) (s : State) : Result := .next (callNearTo (s.pc + disp) s)

/-- CALL regptr16: the register is read before the push (R302, D32). -/
def execCallRegptr (target : Reg) (s : State) : Result := .next (callNearTo (s.reg16 target) s)

/-- CALL memptr16 (R303). -/
def execCallMemptr16 (target : MemArg) (s : State) : Result := .next (callNearTo (s.readEA .word target) s)

/-- CALL far-proc (R304). -/
def execCallFar (offset segment : Word) (s : State) : Result := .next (callFarTo segment offset s)

/-- CALL memptr32: the high-order word is the segment (R305). -/
def execCallMemptr32 (target : MemArg) (s : State) : Result :=
  .next (callFarTo (s.readEAHigh target) (s.readEA .word target) s)

/-! ### RET -/

/-- A return within the segment that also frees `value` bytes (R306, R307). -/
def returnNear (value : Word) (s : State) : State :=
  let (pc, s) := s.pop16
  ({ s with sp := s.sp + value } : State).jump pc

/-- A return to another segment that also frees `value` bytes (R308, R309). -/
def returnFar (value : Word) (s : State) : State :=
  let (pc, s) := s.pop16
  let (ps, s) := s.pop16
  ({ s with ps := ps, sp := s.sp + value } : State).jump pc

/-- RET within the segment (R306). -/
def execRet (s : State) : Result := .next (returnNear 0 s)

/-- RET pop-value within the segment (R307). -/
def execRetPop (value : Word) (s : State) : Result := .next (returnNear value s)

/-- RET between segments (R308). -/
def execRetFar (s : State) : Result := .next (returnFar 0 s)

/-- RET pop-value between segments (R309). -/
def execRetFarPop (value : Word) (s : State) : Result := .next (returnFar value s)

/-! ### BR -/

/-- BR near-label (R310). -/
def execBrNear (disp : Word) (s : State) : Result := .next (s.branch disp)

/-- BR short-label (R311). -/
def execBrShort (disp : Byte) (s : State) : Result := .next (s.branch (sext16 disp))

/-- BR regptr16 (R312). -/
def execBrRegptr (target : Reg) (s : State) : Result := .next (s.jump (s.reg16 target))

/-- BR memptr16 (R313). -/
def execBrMemptr16 (target : MemArg) (s : State) : Result := .next (s.jump (s.readEA .word target))

/-- BR far-label (R314). -/
def execBrFar (offset segment : Word) (s : State) : Result :=
  .next (({ s with ps := segment } : State).jump offset)

/-- BR memptr32: both words are read before PS is written (R315). -/
def execBrMemptr32 (target : MemArg) (s : State) : Result :=
  let offset := s.readEA .word target
  .next (({ s with ps := s.readEAHigh target } : State).jump offset)

/-! ### Conditional branches (R316) -/

/-- Branch by a sign-extended 8-bit displacement if the condition holds, else go on (R316). -/
def branchIf (cond : Bool) (disp : Byte) (s : State) : State := if cond then s.branch (sext16 disp) else s

/-- BV: V = 1 (R317). -/
def execBv (disp : Byte) (s : State) : Result := .next (branchIf (s.psw.v) disp s)

/-- BNV: V = 0 (R318). -/
def execBnv (disp : Byte) (s : State) : Result := .next (branchIf (!s.psw.v) disp s)

/-- BC, BL: CY = 1 (R319). -/
def execBc (disp : Byte) (s : State) : Result := .next (branchIf (s.psw.cy) disp s)

/-- BNC, BNL: CY = 0 (R320). -/
def execBnc (disp : Byte) (s : State) : Result := .next (branchIf (!s.psw.cy) disp s)

/-- BE, BZ: Z = 1 (R321). -/
def execBe (disp : Byte) (s : State) : Result := .next (branchIf (s.psw.z) disp s)

/-- BNE, BNZ: Z = 0 (R322). -/
def execBne (disp : Byte) (s : State) : Result := .next (branchIf (!s.psw.z) disp s)

/-- BNH: CY or Z is 1 (R323). -/
def execBnh (disp : Byte) (s : State) : Result := .next (branchIf (s.psw.cy || s.psw.z) disp s)

/-- BH: CY and Z are 0 (R324). -/
def execBh (disp : Byte) (s : State) : Result := .next (branchIf (!(s.psw.cy || s.psw.z)) disp s)

/-- BN: S = 1 (R325). -/
def execBn (disp : Byte) (s : State) : Result := .next (branchIf (s.psw.s) disp s)

/-- BP: S = 0 (R326). -/
def execBp (disp : Byte) (s : State) : Result := .next (branchIf (!s.psw.s) disp s)

/-- BPE: P = 1 (R327). -/
def execBpe (disp : Byte) (s : State) : Result := .next (branchIf (s.psw.p) disp s)

/-- BPO: P = 0 (R328). -/
def execBpo (disp : Byte) (s : State) : Result := .next (branchIf (!s.psw.p) disp s)

/-- BLT: S differs from V (R329). -/
def execBlt (disp : Byte) (s : State) : Result := .next (branchIf (s.psw.s != s.psw.v) disp s)

/-- BGE: S equals V (R330). -/
def execBge (disp : Byte) (s : State) : Result := .next (branchIf (s.psw.s == s.psw.v) disp s)

/-- BLE: S differs from V or Z = 1 (R331). -/
def execBle (disp : Byte) (s : State) : Result := .next (branchIf ((s.psw.s != s.psw.v) || s.psw.z) disp s)

/-- BGT: S equals V and Z = 0 (R332). -/
def execBgt (disp : Byte) (s : State) : Result := .next (branchIf (!((s.psw.s != s.psw.v) || s.psw.z)) disp s)

/-- BCWZ: CW = 0 (R333). -/
def execBcwz (disp : Byte) (s : State) : Result := .next (branchIf (s.cw == 0) disp s)

/-- CW one less; no flag changes (R334). -/
def countDown (s : State) : State := { s with cw := s.cw - 1 }

/-- DBNZ: CW, decremented, is not 0 (R334). -/
def execDbnz (disp : Byte) (s : State) : Result :=
  let s := countDown s
  .next (branchIf (s.cw != 0) disp s)

/-- DBNZE: CW, decremented, is not 0 and Z = 1 (R335). -/
def execDbnze (disp : Byte) (s : State) : Result :=
  let s := countDown s
  .next (branchIf (s.cw != 0 && s.psw.z) disp s)

/-- DBNZNE: CW, decremented, is not 0 and Z = 0 (R336). -/
def execDbnzne (disp : Byte) (s : State) : Result :=
  let s := countDown s
  .next (branchIf (s.cw != 0 && !s.psw.z) disp s)

end Sys2Proof.Machine
end

