-- ==== Sys2Proof/Machine/Dispatch.lean ====
section
/-! DEFINITION. One arm for each instruction, each one call of its meaning. -/

namespace Sys2Proof.Machine

-- The meaning of an instruction at a state whose PC is already the offset after it.
def exec (i : Instr) (s : State) : Host.Outcome State Fault Refusal :=
  match i with
  | .addRmReg w dst src => Sys2Proof.Machine.execAddRmReg w dst src s
  | .addRegRm w dst src => Sys2Proof.Machine.execAddRegRm w dst src s
  | .addAccImm imm => Sys2Proof.Machine.execAddAccImm imm s
  | .addRmImm dst imm => Sys2Proof.Machine.execAddRmImm dst imm s
  | .orRmReg w dst src => Sys2Proof.Machine.execOrRmReg w dst src s
  | .orRegRm w dst src => Sys2Proof.Machine.execOrRegRm w dst src s
  | .orAccImm imm => Sys2Proof.Machine.execOrAccImm imm s
  | .orRmImm dst imm => Sys2Proof.Machine.execOrRmImm dst imm s
  | .addcRmReg w dst src => Sys2Proof.Machine.execAddcRmReg w dst src s
  | .addcRegRm w dst src => Sys2Proof.Machine.execAddcRegRm w dst src s
  | .addcAccImm imm => Sys2Proof.Machine.execAddcAccImm imm s
  | .addcRmImm dst imm => Sys2Proof.Machine.execAddcRmImm dst imm s
  | .subcRmReg w dst src => Sys2Proof.Machine.execSubcRmReg w dst src s
  | .subcRegRm w dst src => Sys2Proof.Machine.execSubcRegRm w dst src s
  | .subcAccImm imm => Sys2Proof.Machine.execSubcAccImm imm s
  | .subcRmImm dst imm => Sys2Proof.Machine.execSubcRmImm dst imm s
  | .andRmReg w dst src => Sys2Proof.Machine.execAndRmReg w dst src s
  | .andRegRm w dst src => Sys2Proof.Machine.execAndRegRm w dst src s
  | .andAccImm imm => Sys2Proof.Machine.execAndAccImm imm s
  | .andRmImm dst imm => Sys2Proof.Machine.execAndRmImm dst imm s
  | .subRmReg w dst src => Sys2Proof.Machine.execSubRmReg w dst src s
  | .subRegRm w dst src => Sys2Proof.Machine.execSubRegRm w dst src s
  | .subAccImm imm => Sys2Proof.Machine.execSubAccImm imm s
  | .subRmImm dst imm => Sys2Proof.Machine.execSubRmImm dst imm s
  | .xorRmReg w dst src => Sys2Proof.Machine.execXorRmReg w dst src s
  | .xorRegRm w dst src => Sys2Proof.Machine.execXorRegRm w dst src s
  | .xorAccImm imm => Sys2Proof.Machine.execXorAccImm imm s
  | .xorRmImm dst imm => Sys2Proof.Machine.execXorRmImm dst imm s
  | .cmpRmReg w dst src => Sys2Proof.Machine.execCmpRmReg w dst src s
  | .cmpRegRm w dst src => Sys2Proof.Machine.execCmpRegRm w dst src s
  | .cmpAccImm imm => Sys2Proof.Machine.execCmpAccImm imm s
  | .cmpRmImm dst imm => Sys2Proof.Machine.execCmpRmImm dst imm s
  | .testRmReg w dst src => Sys2Proof.Machine.execTestRmReg w dst src s
  | .testAccImm imm => Sys2Proof.Machine.execTestAccImm imm s
  | .testRmImm dst imm => Sys2Proof.Machine.execTestRmImm dst imm s
  | .notRm w dst => Sys2Proof.Machine.execNotRm w dst s
  | .negRm w dst => Sys2Proof.Machine.execNegRm w dst s
  | .muluRm w src => Sys2Proof.Machine.execMuluRm w src s
  | .mulRm w src => Sys2Proof.Machine.execMulRm w src s
  | .divuRm w src => Sys2Proof.Machine.execDivuRm w src s
  | .divRm w src => Sys2Proof.Machine.execDivRm w src s
  | .mulRegRmImm16 dst src imm => Sys2Proof.Machine.execMulRegRmImm16 dst src imm s
  | .mulRegRmImm8 dst src imm => Sys2Proof.Machine.execMulRegRmImm8 dst src imm s
  | .incReg dst => Sys2Proof.Machine.execIncReg dst s
  | .decReg dst => Sys2Proof.Machine.execDecReg dst s
  | .incRm w dst => Sys2Proof.Machine.execIncRm w dst s
  | .decRm w dst => Sys2Proof.Machine.execDecRm w dst s
  | .callRegptr target => Sys2Proof.Machine.execCallRegptr target s
  | .callMemptr16 target => Sys2Proof.Machine.execCallMemptr16 target s
  | .callMemptr32 target => Sys2Proof.Machine.execCallMemptr32 target s
  | .brRegptr target => Sys2Proof.Machine.execBrRegptr target s
  | .brMemptr16 target => Sys2Proof.Machine.execBrMemptr16 target s
  | .brMemptr32 target => Sys2Proof.Machine.execBrMemptr32 target s
  | .pushMem src => Sys2Proof.Machine.execPushMem src s
  | .pushReg src => Sys2Proof.Machine.execPushReg src s
  | .popReg dst => Sys2Proof.Machine.execPopReg dst s
  | .pushSreg src => Sys2Proof.Machine.execPushSreg src s
  | .popSreg dst => Sys2Proof.Machine.execPopSreg dst s
  | .pushPsw => Sys2Proof.Machine.execPushPsw s
  | .popPsw => Sys2Proof.Machine.execPopPsw s
  | .pushR => Sys2Proof.Machine.execPushR s
  | .popR => Sys2Proof.Machine.execPopR s
  | .pushImm16 imm => Sys2Proof.Machine.execPushImm16 imm s
  | .pushImm8 imm => Sys2Proof.Machine.execPushImm8 imm s
  | .popMem dst => Sys2Proof.Machine.execPopMem dst s
  | .prepare size level => Sys2Proof.Machine.execPrepare size level s
  | .dispose => Sys2Proof.Machine.execDispose s
  | .segDs1 => Sys2Proof.Machine.execSegDs1 s
  | .segPs => Sys2Proof.Machine.execSegPs s
  | .segSs => Sys2Proof.Machine.execSegSs s
  | .segDs0 => Sys2Proof.Machine.execSegDs0 s
  | .adj4a => Sys2Proof.Machine.execAdj4a s
  | .adj4s => Sys2Proof.Machine.execAdj4s s
  | .adjba => Sys2Proof.Machine.execAdjba s
  | .adjbs => Sys2Proof.Machine.execAdjbs s
  | .chkind index limits => Sys2Proof.Machine.execChkind index limits s
  | .repnc => Sys2Proof.Machine.execRepnc s
  | .repc => Sys2Proof.Machine.execRepc s
  | .fpo2Reg x y z => Sys2Proof.Machine.execFpo2Reg x y z s
  | .fpo2Mem x y mem => Sys2Proof.Machine.execFpo2Mem x y mem s
  | .inm w => Sys2Proof.Machine.execInm w s
  | .outm w => Sys2Proof.Machine.execOutm w s
  | .bv disp => Sys2Proof.Machine.execBv disp s
  | .bnv disp => Sys2Proof.Machine.execBnv disp s
  | .bc disp => Sys2Proof.Machine.execBc disp s
  | .bnc disp => Sys2Proof.Machine.execBnc disp s
  | .be disp => Sys2Proof.Machine.execBe disp s
  | .bne disp => Sys2Proof.Machine.execBne disp s
  | .bnh disp => Sys2Proof.Machine.execBnh disp s
  | .bh disp => Sys2Proof.Machine.execBh disp s
  | .bn disp => Sys2Proof.Machine.execBn disp s
  | .bp disp => Sys2Proof.Machine.execBp disp s
  | .bpe disp => Sys2Proof.Machine.execBpe disp s
  | .bpo disp => Sys2Proof.Machine.execBpo disp s
  | .blt disp => Sys2Proof.Machine.execBlt disp s
  | .bge disp => Sys2Proof.Machine.execBge disp s
  | .ble disp => Sys2Proof.Machine.execBle disp s
  | .bgt disp => Sys2Proof.Machine.execBgt disp s
  | .dbnzne disp => Sys2Proof.Machine.execDbnzne disp s
  | .dbnze disp => Sys2Proof.Machine.execDbnze disp s
  | .dbnz disp => Sys2Proof.Machine.execDbnz disp s
  | .bcwz disp => Sys2Proof.Machine.execBcwz disp s
  | .xchRegReg w a b => Sys2Proof.Machine.execXchRegReg w a b s
  | .xchMemReg w mem reg => Sys2Proof.Machine.execXchMemReg w mem reg s
  | .movRmReg w dst src => Sys2Proof.Machine.execMovRmReg w dst src s
  | .movRegReg w dst src => Sys2Proof.Machine.execMovRegReg w dst src s
  | .movRegMem w dst src => Sys2Proof.Machine.execMovRegMem w dst src s
  | .movRmSreg dst src => Sys2Proof.Machine.execMovRmSreg dst src s
  | .ldea dst src => Sys2Proof.Machine.execLdea dst src s
  | .movSregRm dst src => Sys2Proof.Machine.execMovSregRm dst src s
  | .nop => Sys2Proof.Machine.execNop s
  | .xchAwReg reg => Sys2Proof.Machine.execXchAwReg reg s
  | .cvtbw => Sys2Proof.Machine.execCvtbw s
  | .cvtwl => Sys2Proof.Machine.execCvtwl s
  | .callFar offset segment => Sys2Proof.Machine.execCallFar offset segment s
  | .poll => Sys2Proof.Machine.execPoll s
  | .movPswAh => Sys2Proof.Machine.execMovPswAh s
  | .movAhPsw => Sys2Proof.Machine.execMovAhPsw s
  | .movAccDmem w addr => Sys2Proof.Machine.execMovAccDmem w addr s
  | .movDmemAcc w addr => Sys2Proof.Machine.execMovDmemAcc w addr s
  | .movbk w => Sys2Proof.Machine.execMovbk w s
  | .cmpbk w => Sys2Proof.Machine.execCmpbk w s
  | .stm w => Sys2Proof.Machine.execStm w s
  | .ldm w => Sys2Proof.Machine.execLdm w s
  | .cmpm w => Sys2Proof.Machine.execCmpm w s
  | .movRegImm dst imm => Sys2Proof.Machine.execMovRegImm dst imm s
  | .rolOne w dst => Sys2Proof.Machine.execRolOne w dst s
  | .rolCl w dst => Sys2Proof.Machine.execRolCl w dst s
  | .rolImm w dst count => Sys2Proof.Machine.execRolImm w dst count s
  | .rorOne w dst => Sys2Proof.Machine.execRorOne w dst s
  | .rorCl w dst => Sys2Proof.Machine.execRorCl w dst s
  | .rorImm w dst count => Sys2Proof.Machine.execRorImm w dst count s
  | .rolcOne w dst => Sys2Proof.Machine.execRolcOne w dst s
  | .rolcCl w dst => Sys2Proof.Machine.execRolcCl w dst s
  | .rolcImm w dst count => Sys2Proof.Machine.execRolcImm w dst count s
  | .rorcOne w dst => Sys2Proof.Machine.execRorcOne w dst s
  | .rorcCl w dst => Sys2Proof.Machine.execRorcCl w dst s
  | .rorcImm w dst count => Sys2Proof.Machine.execRorcImm w dst count s
  | .shlOne w dst => Sys2Proof.Machine.execShlOne w dst s
  | .shlCl w dst => Sys2Proof.Machine.execShlCl w dst s
  | .shlImm w dst count => Sys2Proof.Machine.execShlImm w dst count s
  | .shrOne w dst => Sys2Proof.Machine.execShrOne w dst s
  | .shrCl w dst => Sys2Proof.Machine.execShrCl w dst s
  | .shrImm w dst count => Sys2Proof.Machine.execShrImm w dst count s
  | .shraOne w dst => Sys2Proof.Machine.execShraOne w dst s
  | .shraCl w dst => Sys2Proof.Machine.execShraCl w dst s
  | .shraImm w dst count => Sys2Proof.Machine.execShraImm w dst count s
  | .retPop value => Sys2Proof.Machine.execRetPop value s
  | .ret => Sys2Proof.Machine.execRet s
  | .movDs1RegMem dst src => Sys2Proof.Machine.execMovDs1RegMem dst src s
  | .movDs0RegMem dst src => Sys2Proof.Machine.execMovDs0RegMem dst src s
  | .movMemImm dst imm => Sys2Proof.Machine.execMovMemImm dst imm s
  | .retFarPop value => Sys2Proof.Machine.execRetFarPop value s
  | .retFar => Sys2Proof.Machine.execRetFar s
  | .brk3 => Sys2Proof.Machine.execBrk3 s
  | .brkImm vector => Sys2Proof.Machine.execBrkImm vector s
  | .brkv => Sys2Proof.Machine.execBrkv s
  | .reti => Sys2Proof.Machine.execReti s
  | .cvtbd => Sys2Proof.Machine.execCvtbd s
  | .cvtdb => Sys2Proof.Machine.execCvtdb s
  | .trans => Sys2Proof.Machine.execTrans s
  | .fpo1Reg x y z => Sys2Proof.Machine.execFpo1Reg x y z s
  | .fpo1Mem x y mem => Sys2Proof.Machine.execFpo1Mem x y mem s
  | .inAccImm w port => Sys2Proof.Machine.execInAccImm w port s
  | .outImmAcc w port => Sys2Proof.Machine.execOutImmAcc w port s
  | .callNear disp => Sys2Proof.Machine.execCallNear disp s
  | .brNear disp => Sys2Proof.Machine.execBrNear disp s
  | .brFar offset segment => Sys2Proof.Machine.execBrFar offset segment s
  | .brShort disp => Sys2Proof.Machine.execBrShort disp s
  | .inAccDw w => Sys2Proof.Machine.execInAccDw w s
  | .outDwAcc w => Sys2Proof.Machine.execOutDwAcc w s
  | .buslock => Sys2Proof.Machine.execBuslock s
  | .repne => Sys2Proof.Machine.execRepne s
  | .rep => Sys2Proof.Machine.execRep s
  | .halt => Sys2Proof.Machine.execHalt s
  | .not1Cy => Sys2Proof.Machine.execNot1Cy s
  | .clr1Cy => Sys2Proof.Machine.execClr1Cy s
  | .set1Cy => Sys2Proof.Machine.execSet1Cy s
  | .di => Sys2Proof.Machine.execDi s
  | .ei => Sys2Proof.Machine.execEi s
  | .clr1Dir => Sys2Proof.Machine.execClr1Dir s
  | .set1Dir => Sys2Proof.Machine.execSet1Dir s
  | .test1Cl w dst => Sys2Proof.Machine.execTest1Cl w dst s
  | .test1Imm w dst bit => Sys2Proof.Machine.execTest1Imm w dst bit s
  | .clr1Cl w dst => Sys2Proof.Machine.execClr1Cl w dst s
  | .clr1Imm w dst bit => Sys2Proof.Machine.execClr1Imm w dst bit s
  | .set1Cl w dst => Sys2Proof.Machine.execSet1Cl w dst s
  | .set1Imm w dst bit => Sys2Proof.Machine.execSet1Imm w dst bit s
  | .not1Cl w dst => Sys2Proof.Machine.execNot1Cl w dst s
  | .not1Imm w dst bit => Sys2Proof.Machine.execNot1Imm w dst bit s
  | .add4s => Sys2Proof.Machine.execAdd4s s
  | .sub4s => Sys2Proof.Machine.execSub4s s
  | .cmp4s => Sys2Proof.Machine.execCmp4s s
  | .rol4 dst => Sys2Proof.Machine.execRol4 dst s
  | .ror4 dst => Sys2Proof.Machine.execRor4 dst s
  | .insRegReg offset length => Sys2Proof.Machine.execInsRegReg offset length s
  | .extRegReg offset length => Sys2Proof.Machine.execExtRegReg offset length s
  | .insRegImm offset length => Sys2Proof.Machine.execInsRegImm offset length s
  | .extRegImm offset length => Sys2Proof.Machine.execExtRegImm offset length s
  | .brkxa vector => Sys2Proof.Machine.execBrkxa vector s
  | .retxa vector => Sys2Proof.Machine.execRetxa vector s
  | .brkem vector => Sys2Proof.Machine.execBrkem vector s
  | .calln vector => Sys2Proof.Machine.execCalln vector s
  | .retem => Sys2Proof.Machine.execRetem s
  | .undef63 => Sys2Proof.Machine.execUndef63 s
  | .undefD6 => Sys2Proof.Machine.execUndefD6 s
  | .undefF1 => Sys2Proof.Machine.execUndefF1 s
  | .undefC0 w md mem => Sys2Proof.Machine.execUndefC0 w md mem s
  | .undefD0 w md mem => Sys2Proof.Machine.execUndefD0 w md mem s
  | .undefD2 w md mem => Sys2Proof.Machine.execUndefD2 w md mem s
  | .undefF6 w md mem => Sys2Proof.Machine.execUndefF6 w md mem s
  | .undefFF md mem => Sys2Proof.Machine.execUndefFF md mem s
  | .undefFE md sub mem => Sys2Proof.Machine.execUndefFE md sub mem s
  | .undef0F second => Sys2Proof.Machine.execUndef0F second s
  | .undefCvt w second => Sys2Proof.Machine.execUndefCvt w second s

end Sys2Proof.Machine
end

