-- ==== Sys2Proof/Machine/Sequence.lean ====
section
/-! DEFINITION. What a step does around an instruction: fetching and decoding it, and the instruction boundary after it
with the single-step break and the hardware interrupts (R86 to R88, R145, R362, R364, R410 to R414); and what the
environment does to the machine between steps. -/

namespace Sys2Proof.Machine

namespace State

/-- The machine decodes by the emulation-mode map: MD = 0 on a device that has the flag (R96, R380). -/
def emulating (s : State) : Bool := s.cls == .emu && !s.psw.md

/-- The code map in force (R88, R96). -/
def codeMap (s : State) : CodeMap :=
  match s.cls with
  | .xa => .xaNative
  | .emu => if s.psw.md then .emuNative else .emulation

/-! ### Fetch -/

/-- How many bytes a fetch looks at: the longest instruction (R70). -/
def fetchLength : Nat := 6

/-- The bytes at PS:PC; the offset wraps within the segment (R15, R88). -/
def fetchBytes (s : State) : List Byte :=
  (List.range fetchLength).map fun k => s.readByte s.ps (s.pc + BitVec.ofNat 16 k)

/-- The byte at an offset in PS was stored within `queue_depth` bytes after the storing instruction, with no taken
control transfer since (R60, R448). -/
def stale (s : State) (off : Word) : Bool :=
  s.stores.any fun c => c.1 == s.addr s.ps off && decide ((off - c.2).toNat < Config.queueDepth)

/-- Some byte of the instruction of a length at PC is stale. -/
def staleFetch (s : State) (length : Nat) : Bool :=
  (List.range length).any fun k => s.stale (s.pc + BitVec.ofNat 16 k)

/-- The machine as the meaning of an instruction of a length finds it: PC is `nextPC`; where no prefix came before, the
instruction starts here and the window is the one that was open; the window closes unless the instruction opens it
again (R412). -/
def enter (s : State) (length : Nat) : State :=
  let fresh := s.prefixes == Prefixes.none
  { s with
    pc := s.pc + BitVec.ofNat 16 length
    start := if fresh then s.pc else s.start
    window := if fresh then s.inhibit else s.window
    inhibit := false }

/-- The instruction at PS:PC and the machine its meaning finds, or why there is none. -/
def fetch (s : State) : Except Refusal (Instr × State) :=
  match decode s.codeMap s.fetchBytes with
  | .error .emulationCode => .error .emulationMode
  | .error r => .error (.undecodable r)
  | .ok (i, rest) =>
    let length := fetchLength - rest.length
    if s.staleFetch length then .error .staleFetch else .ok (i, s.enter length)

/-- A hardware interrupt is due and accepted (R411): an NMI request is pending, or a maskable request is pending and
enabled. -/
def requestDue (s : State) : Bool := s.nmi || (s.int.isSome && s.psw.ie)

/-- In the emulation mode a boundary has left something that no source says how to take (R389, R411): the single-step
break of the instruction before it, or, unless the window is open, a hardware interrupt. -/
def interruptDue (s : State) : Bool := s.breakDue || (!s.inhibit && s.requestDue)

/-- The instruction a step runs and the machine its meaning finds: the one in progress, or the one at PS:PC. What an
interrupt does in the emulation mode is in no source (R389). -/
def select (s : State) : Except Refusal (Instr × State) :=
  match s.inProgress with
  | some i => .ok (i, { s with inProgress := none })
  | none => if s.emulating && s.interruptDue then .error .emulationInterrupt else s.fetch

/-! ### The boundary after an instruction -/

/-- The hardware interrupts (R411): a pending NMI request is accepted and consumed, else a pending maskable request if
IE = 1; an accepted request releases HALT, and so does a maskable request that IE disables (R362, D38). -/
def acceptRequests (s : State) (saved : Word) : State :=
  if s.nmi then ({ s with nmi := false, halted := false } : State).breakSeq s.nmiVector saved
  else
    match s.int with
    | none => s
    | some v =>
      if s.psw.ie then ({ s with int := none, halted := false } : State).breakSeq v saved
      else { s with halted := false }

/-- The boundary after a completed instruction (R411): unless the window is open, the single-step break when BRK was
set as the instruction began (R410), then the hardware interrupts. In the emulation mode nothing is taken here: a break
that is due is noted, whatever BRK is now (R410 (b)), and the next step is refused for it or for a request (R381,
R389). -/
def boundary (s : State) (armed : Bool) : State :=
  let s := { s with prefixes := Prefixes.none }
  if s.inhibit then s
  else if s.emulating then { s with breakDue := armed }
  else
    let s := if armed then s.breakSeq 1 s.pc else s
    s.acceptRequests s.pc

/-- Between two elements of a repeated instruction, or while POLL waits: a hardware interrupt saves the offset of the
instruction's first byte, which drops the instruction in progress (R145, R364, R404). DESIGN CHOICE, unsafe (log 17, log
38): a window that was open before the instruction's first byte holds hardware interrupts off until the instruction
completes (R412), so through the whole wait of a POLL too, where R364 and R414 could be read as closing it after one
boundary. -/
def pause (s : State) : State :=
  if s.window || s.emulating || !s.requestDue then s
  else ({ s with inProgress := none, prefixes := Prefixes.none } : State).acceptRequests s.start

end State

/-- A prefix byte (R86): no boundary follows it. -/
def isPrefix : Instr → Bool
  | .segDs1 | .segPs | .segSs | .segDs0 | .repnc | .repc | .buslock | .repne | .rep => true
  | _ => false

namespace State

/-- What follows the meaning of an instruction: nothing after a prefix, a pause while the instruction is in progress,
else the boundary. `armed` is BRK as the instruction began. -/
def finish (s : State) (i : Instr) (armed : Bool) : State :=
  if isPrefix i then s
  else if s.inProgress.isSome then s.pause
  else s.boundary armed

/-! ### What the environment does between steps -/

/-- The RESET input, at any moment (R440, R441): PS, PC, SS, DS0, DS1, PSW and the hidden state take their reset values,
nothing is pushed. The eight general registers have no reset value and keep theirs, and memory its bytes, so what an
instruction that was cut short has done to them is not undone (R441). DESIGN CHOICE, unsafe (log 54): the class and what
the environment holds stay, XAM is cleared whole, `stores` is emptied. -/
def resetInput (s : State) : State :=
  { State.reset with
    cls := s.cls, nmiVector := s.nmiVector
    aw := s.aw, cw := s.cw, dw := s.dw, bw := s.bw, sp := s.sp, bp := s.bp, ix := s.ix, iy := s.iy
    mem := s.mem, nmi := s.nmi, int := s.int, pollActive := s.pollActive
    ioIn := s.ioIn, ioOut := s.ioOut, draws := s.draws }

/-- An NMI request (R411). -/
def requestNmi (s : State) : State := { s with nmi := true }

/-- A maskable request with its vector number (R411, D42), or its withdrawal. -/
def requestInt (s : State) (vector : Option Byte) : State := { s with int := vector }

/-- The level of the POLL pin (R364). -/
def setPoll (s : State) (active : Bool) : State := { s with pollActive := active }

/-- The answer to the next I/O read that has none yet (R50). -/
def supplyIo (s : State) (answer : Word) : State := { s with ioIn := s.ioIn ++ [answer] }

/-- Store bytes at PS:PC and on, as a program is loaded; not a store of the program (R60). -/
def loadBytes (s : State) (off : Word) : List Byte → State
  | [] => s
  | b :: rest => loadBytes { s with mem := s.mem.write (s.addr s.ps off) b } (off + 1) rest

/-- The machine in the code map a word of the opcode table is read by: BRKXA and RETXA need the class XA, CALLN and
RETEM the emulation mode of the class EMU, BRKEM the native mode of the class EMU, and every other word a native
mode. -/
def inMapOf (s : State) (nbits w : Nat) : State :=
  match tableMap nbits w with
  | .xaNative => { s with cls := .xa, psw := { s.psw with md := true } }
  | .emulation => { s with cls := .emu, psw := { s.psw with md := false } }
  | .emuNative =>
    if nbits = 16 ∧ w = 0x0FFF then { s with cls := .emu, psw := { s.psw with md := true } }
    else { s with psw := { s.psw with md := true } }

/-- The machine whose next step fetches and runs the instruction of a table word: its bytes stand at PS:PC, and nothing
keeps the step from fetching there. -/
def fetchNext (s : State) (nbits w : Nat) : State :=
  let s := { s.inMapOf nbits w with halted := false, inProgress := none, breakDue := false, stores := [] }
  s.loadBytes s.pc (tableInstrBytes nbits w)

end State

end Sys2Proof.Machine
end

