-- ==== Sys2Proof/Machine/Step.lean ====
section
/-! DEFINITION. One step of the machine: one instruction, one prefix, one element of a repeated instruction, or one
look at the requests while the CPU is halted or POLL waits. -/

namespace Sys2Proof.Machine

/-- The step. A halted CPU executes nothing and accepts requests (R362); else the instruction that `select` gives runs,
and `finish` follows it, with BRK as it was when the step began (R410). -/
def step (s : State) : Host.Outcome State Fault Refusal :=
  if s.halted then .next (s.acceptRequests s.pc)
  else
    match s.select with
    | .error r => .refused r
    | .ok (i, s') =>
      match exec i s' with
      | .next t => .next (t.finish i s.psw.brk)
      | .fault r => .fault r
      | .refused r => .refused r

/-- The machine with an instruction of the opcode table where the next step fetches it. -/
def State.withFetchWord (s : State) (nbits w : Nat) : State := s.fetchNext nbits w

end Sys2Proof.Machine
end

