-- ==== Sys2Proof/Safety.lean ====
section
/-! DEFINITION. What a good state and a safe run are, in the terms the statements use. -/

namespace Sys2Proof.Machine

/-- The instructions that may be in progress between two steps: the block instructions and POLL (R145, R364). -/
def resumable : Instr → Bool
  | .movbk _ | .cmpbk _ | .cmpm _ | .ldm _ | .stm _ | .inm _ | .outm _ | .poll => true
  | _ => false

namespace State

/-- What the class has no state for keeps its neutral value: on V33A and V53A PSW bit 15 is 1 and MDWE does not exist
(R16, R19), on the others the XAM register does not exist (R32). -/
abbrev ClassOk (s : State) : Prop :=
  (s.cls = .xa → s.psw.md = true ∧ s.mdwe = false) ∧ (s.cls = .emu → s.xam = 0)

/-- The invariant of every step: the memory has its canonical form, the class has only its own state, and only a
resumable instruction is in progress. -/
abbrev Inv (s : State) : Prop :=
  s.mem.wf ∧ s.ClassOk ∧ ∀ i, s.inProgress = some i → resumable i = true

/-- Memory reads back what was written: addresses are formed as in the normal address mode (R40, R385). -/
abbrev NormalAddresses (s : State) : Prop := s.xaOn = false

end State

/-! ### Frames: what an instruction leaves as it was

A frame is an equation: the state after is the state before but for the fields it names, so every other field, the
memory among them, is unchanged. -/

/-- Only general registers, PSW and the count of undefined values may differ. -/
abbrev RegisterFrame (s t : State) : Prop :=
  t = { s with
    aw := t.aw, cw := t.cw, dw := t.dw, bw := t.bw, sp := t.sp, bp := t.bp, ix := t.ix, iy := t.iy
    psw := t.psw, draws := t.draws }

/-- Only memory, PSW and the count of undefined values may differ. -/
abbrev StoreFrame (s t : State) : Prop :=
  t = { s with psw := t.psw, draws := t.draws, mem := t.mem, stores := t.stores }

/-- Every register but one is unchanged; for a byte register also the other half of its word register. -/
abbrev OnlyReg (w : Width) (r : Reg) (s t : State) : Prop :=
  match w with
  | .word => ∀ q, q ≠ r → t.reg16 q = s.reg16 q
  | .byte =>
    (∀ q, q ≠ r → t.reg8 q = s.reg8 q) ∧ t.sp = s.sp ∧ t.bp = s.bp ∧ t.ix = s.ix ∧ t.iy = s.iy

/-- An address is one of the bytes of an operand at `seg:off`. -/
abbrev InOperand (s : State) (w : Width) (seg off : Word) (a : Nat) : Prop :=
  a = s.addr seg off ∨ w = .word ∧ a = s.addrHigh seg off

/-- Every byte of memory outside an operand reads as before. -/
abbrev OnlyStored (w : Width) (seg off : Word) (s t : State) : Prop :=
  ∀ a, ¬ InOperand s w seg off a → t.mem.read a = s.mem.read a

/-- The operand at `seg:off` reads as a value after. The high-order byte is stored last, so a translation that put both
bytes at one address would show it there (R42, R386). -/
abbrev Stored (w : Width) (seg off : Word) (v : BitVec w.bits) (s t : State) : Prop :=
  match w with
  | .byte => t.mem.read (s.addr seg off) = v
  | .word =>
    t.mem.read (s.addrHigh seg off) = highByte v ∧
      (s.addr seg off ≠ s.addrHigh seg off → t.mem.read (s.addr seg off) = lowByte v)

/-- A destination holds a value after, and nothing else is written but PSW. -/
abbrev Writes (w : Width) (dst : RM) (v : BitVec w.bits) (s t : State) : Prop :=
  match dst with
  | .reg r => t.reg w r = v ∧ OnlyReg w r s t ∧ RegisterFrame s t
  | .mem m =>
    Stored w (s.eaSeg m) (s.ea m) v s t ∧ OnlyStored w (s.eaSeg m) (s.ea m) s t ∧ StoreFrame s t

/-- An address is one of the bytes of the `n` stack words below SS:SP. -/
abbrev InStack (s : State) (n : Nat) (a : Nat) : Prop :=
  ∃ k, k < n ∧ InOperand s .word s.ss (s.sp - BitVec.ofNat 16 (2 * (k + 1))) a

/-- The stack words below the old SS:SP read as these after, the first one highest, and every other byte of memory
reads as before (R290). -/
abbrev Pushed (words : List Word) (s t : State) : Prop :=
  (∀ a, ¬ InStack s words.length a → t.mem.read a = s.mem.read a) ∧
    (s.NormalAddresses →
      ∀ k, (h : k < words.length) → t.readWord s.ss (s.sp - BitVec.ofNat 16 (2 * (k + 1))) = words[k])

/-- The control flags are unchanged. -/
abbrev SameControlFlags (f g : Psw) : Prop := g.md = f.md ∧ g.dir = f.dir ∧ g.ie = f.ie ∧ g.brk = f.brk

/-- A vector is entered with a saved PC (R403): the three words pushed, IE and BRK reset, PS:PC from the vector, the
queue emptied, nothing else written. -/
abbrev Enters (n : Byte) (saved : Word) (s t : State) : Prop :=
  t = { s with
    ps := s.vectorSegment n, pc := s.vectorOffset n, sp := s.sp - 6
    psw := { s.psw with ie := false, brk := false }
    stores := [], mem := t.mem } ∧
    Pushed [s.pswWord, s.ps, saved] s t

/-- A run of `n` steps that meets no fault and no refusal. -/
def SafeRun (n : Nat) (s : State) : Prop := ∃ t, Sys2Proof.core.run n s = .next t

end Sys2Proof.Machine
end

