-- ==== Sys2Proof/Certificates/Slice0/Obligations.lean ====
section
/-! DEFINITION. The statements for the provers, and the terms of the spec they are written in. `exec i s` is the meaning
of an instruction at a state whose PC is already `nextPC`; a statement that gives `t` after it therefore says nothing of
how PC moved past the instruction, which `Obligations.StepRunsDecodedInstruction` says. -/

open Sys2Proof Sys2Proof.Machine

namespace Sys2Proof.Machine

/-! ### Arithmetic in the spec's terms -/

/-- A signed integer is representable in `n` bits. -/
abbrev FitsSigned (n : Nat) (x : Int) : Prop := -(2 ^ (n - 1)) ≤ x ∧ x < 2 ^ (n - 1)

/-- S, Z and P of a result (R24, R25, R26). -/
abbrev SignZeroParity {n : Nat} (r : BitVec n) (f : Psw) : Prop :=
  f.s = r.getLsbD (n - 1) ∧ (f.z = true ↔ r.toNat = 0) ∧
    (f.p = true ↔ ((List.range 8).filter r.getLsbD).length % 2 = 0)

/-- `r` is the sum of `a`, `b` and a carry; AC, V, S, Z and P are of that sum (R22 to R26). -/
abbrev IsSum {n : Nat} (a b : BitVec n) (c : Bool) (r : BitVec n) (f : Psw) : Prop :=
  r.toNat = (a.toNat + b.toNat + c.toNat) % 2 ^ n ∧
    (f.ac = true ↔ 16 ≤ a.toNat % 16 + b.toNat % 16 + c.toNat) ∧
    (f.v = true ↔ ¬ FitsSigned n (a.toInt + b.toInt + c.toNat)) ∧ SignZeroParity r f

/-- `r` is `a` minus `b` minus a borrow; AC, V, S, Z and P are of that difference (R22 to R26). -/
abbrev IsDifference {n : Nat} (a b : BitVec n) (c : Bool) (r : BitVec n) (f : Psw) : Prop :=
  (r.toNat : Int) = ((a.toNat : Int) - b.toNat - c.toNat) % 2 ^ n ∧
    (f.ac = true ↔ a.toNat % 16 < b.toNat % 16 + c.toNat) ∧
    (f.v = true ↔ ¬ FitsSigned n (a.toInt - b.toInt - c.toNat)) ∧ SignZeroParity r f

/-- A carry out of the top bit (R21). -/
abbrev CarryOut {n : Nat} (a b : BitVec n) (c : Bool) (f : Psw) : Prop :=
  f.cy = true ↔ 2 ^ n ≤ a.toNat + b.toNat + c.toNat

/-- A borrow into the top bit (R21). -/
abbrev BorrowIn {n : Nat} (a b : BitVec n) (c : Bool) (f : Psw) : Prop :=
  f.cy = true ↔ a.toNat < b.toNat + c.toNat

/-- A logical result: CY and V are reset, S, Z and P are of the result, AC is open (R21 to R26). -/
abbrev IsLogical {n : Nat} (r : BitVec n) (f : Psw) : Prop := f.cy = false ∧ f.v = false ∧ SignZeroParity r f

/-- What an operation with two operands computes, `f` the flags before, `g` after (R181 to R185, R251 to R253). -/
abbrev AluResult {n : Nat} (o : AluOp) (a b r : BitVec n) (f g : Psw) : Prop :=
  SameControlFlags f g ∧
    match o with
    | .add => IsSum a b false r g ∧ CarryOut a b false g
    | .addc => IsSum a b f.cy r g ∧ CarryOut a b f.cy g
    | .sub | .cmp => IsDifference a b false r g ∧ BorrowIn a b false g
    | .subc => IsDifference a b f.cy r g ∧ BorrowIn a b f.cy g
    | .and => (∀ k, r.getLsbD k = (a.getLsbD k && b.getLsbD k)) ∧ IsLogical r g
    | .or => (∀ k, r.getLsbD k = (a.getLsbD k || b.getLsbD k)) ∧ IsLogical r g
    | .xor => (∀ k, r.getLsbD k = (a.getLsbD k != b.getLsbD k)) ∧ IsLogical r g

/-- The `mem, reg` form of each operation, with its alias (R180, R250). -/
def memRegForm (o : AluOp) (w : Width) (dst : RM) (src : Reg) : Instr :=
  match o with
  | .add => .addRmReg w dst src
  | .or => .orRmReg w dst src
  | .addc => .addcRmReg w dst src
  | .subc => .subcRmReg w dst src
  | .and => .andRmReg w dst src
  | .sub => .subRmReg w dst src
  | .xor => .xorRmReg w dst src
  | .cmp => .cmpRmReg w dst src

/-- The `reg, mem` and `reg, reg'` forms of each operation (R180, R250). -/
def regMemForm (o : AluOp) (w : Width) (dst : Reg) (src : RM) : Instr :=
  match o with
  | .add => .addRegRm w dst src
  | .or => .orRegRm w dst src
  | .addc => .addcRegRm w dst src
  | .subc => .subcRegRm w dst src
  | .and => .andRegRm w dst src
  | .sub => .subRegRm w dst src
  | .xor => .xorRegRm w dst src
  | .cmp => .cmpRegRm w dst src

/-- The `acc, imm` form of each operation (R180, R250). -/
def accForm (o : AluOp) (v : Imm) : Instr :=
  match o with
  | .add => .addAccImm v
  | .or => .orAccImm v
  | .addc => .addcAccImm v
  | .subc => .subcAccImm v
  | .and => .andAccImm v
  | .sub => .subAccImm v
  | .xor => .xorAccImm v
  | .cmp => .cmpAccImm v

/-- The `reg, imm` and `mem, imm` forms of each operation (R180, R250). -/
def groupForm (o : AluOp) (dst : RM) (v : ImmS) : Instr :=
  match o with
  | .add => .addRmImm dst v
  | .or => .orRmImm dst v
  | .addc => .addcRmImm dst v
  | .subc => .subcRmImm dst v
  | .and => .andRmImm dst v
  | .sub => .subRmImm dst v
  | .xor => .xorRmImm dst v
  | .cmp => .cmpRmImm dst v

/-- The six operand forms (R180, R250): the instruction, its operation, width, destination and source value. -/
inductive AluForm (s : State) : Instr → AluOp → (w : Width) → RM → BitVec w.bits → Prop where
  | rmReg (o w dst src) : AluForm s (memRegForm o w dst src) o w dst (s.reg w src)
  | regRm (o w dst src) : AluForm s (regMemForm o w dst src) o w (.reg dst) (s.readRM w src)
  | accByte (o v) : AluForm s (accForm o (.byte v)) o .byte (.reg .aw) v
  | accWord (o v) : AluForm s (accForm o (.word v)) o .word (.reg .aw) v
  | imm80 (o dst v) : AluForm s (groupForm o dst (.byte80 v)) o .byte dst v
  | imm81 (o dst v) : AluForm s (groupForm o dst (.word81 v)) o .word dst v
  | imm82 (o dst v) : AluForm s (groupForm o dst (.byte82 v)) o .byte dst v
  | imm83 (o dst v) : AluForm s (groupForm o dst (.sext83 v)) o .word dst (sext16 v)

/-- The operand forms of TEST (R256). -/
inductive TestForm (s : State) : Instr → (w : Width) → RM → BitVec w.bits → Prop where
  | rmReg (w dst src) : TestForm s (.testRmReg w dst src) w dst (s.reg w src)
  | accByte (v) : TestForm s (.testAccImm (.byte v)) .byte (.reg .aw) v
  | accWord (v) : TestForm s (.testAccImm (.word v)) .word (.reg .aw) v
  | immByte (dst v) : TestForm s (.testRmImm dst (.byte v)) .byte dst v
  | immWord (dst v) : TestForm s (.testRmImm dst (.word v)) .word dst v

/-- The forms of INC and DEC (R186, R187): the flag says which. -/
inductive CountForm : Instr → Bool → Width → RM → Prop where
  | incReg (r) : CountForm (.incReg r) true .word (.reg r)
  | incRm (w dst) : CountForm (.incRm w dst) true w dst
  | decReg (r) : CountForm (.decReg r) false .word (.reg r)
  | decRm (w dst) : CountForm (.decRm w dst) false w dst

/-! ### Shifts, rotates and bits in the spec's terms -/

/-- The shifts and rotates (R270). -/
inductive ShiftOp where
  | rol | ror | rolc | rorc | shl | shr | shra

/-- The forms with count 1. -/
def oneForm (o : ShiftOp) (w : Width) (dst : RM) : Instr :=
  match o with
  | .rol => .rolOne w dst
  | .ror => .rorOne w dst
  | .rolc => .rolcOne w dst
  | .rorc => .rorcOne w dst
  | .shl => .shlOne w dst
  | .shr => .shrOne w dst
  | .shra => .shraOne w dst

/-- The forms with the count in CL. -/
def clForm (o : ShiftOp) (w : Width) (dst : RM) : Instr :=
  match o with
  | .rol => .rolCl w dst
  | .ror => .rorCl w dst
  | .rolc => .rolcCl w dst
  | .rorc => .rorcCl w dst
  | .shl => .shlCl w dst
  | .shr => .shrCl w dst
  | .shra => .shraCl w dst

/-- The forms with an immediate count. -/
def immForm (o : ShiftOp) (w : Width) (dst : RM) (count : Byte) : Instr :=
  match o with
  | .rol => .rolImm w dst count
  | .ror => .rorImm w dst count
  | .rolc => .rolcImm w dst count
  | .rorc => .rorcImm w dst count
  | .shl => .shlImm w dst count
  | .shr => .shrImm w dst count
  | .shra => .shraImm w dst count

/-- The result `r` and the carry `c'` of `k` steps on an operand `d` with carry `c` (R271, R276 to R282). -/
abbrev ShiftResult {n : Nat} (o : ShiftOp) (k : Nat) (d : BitVec n) (c : Bool) (r : BitVec n) (c' : Bool) : Prop :=
  match o with
  | .shl => r.toNat = d.toNat * 2 ^ k % 2 ^ n ∧ c' = (decide (k ≤ n) && d.getLsbD (n - k))
  | .shr => r.toNat = d.toNat / 2 ^ k ∧ c' = d.getLsbD (k - 1)
  | .shra => r.toInt = d.toInt / 2 ^ k ∧ c' = d.getLsbD (min (k - 1) (n - 1))
  | .rol => r = d.rotateLeft k ∧ c' = r.getLsbD 0
  | .ror => r = d.rotateRight k ∧ c' = r.getLsbD (n - 1)
  | .rolc => BitVec.cons c' r = (BitVec.cons c d).rotateLeft k
  | .rorc => BitVec.cons c' r = (BitVec.cons c d).rotateRight k

/-- The flags besides CY and V: a shift writes S, Z and P of the result and leaves AC open (R274), a rotate writes
none (R275). -/
abbrev ShiftFlags {n : Nat} (o : ShiftOp) (r : BitVec n) (f g : Psw) : Prop :=
  SameControlFlags f g ∧
    match o with
    | .shl | .shr | .shra => SignZeroParity r g
    | .rol | .ror | .rolc | .rorc => g.ac = f.ac ∧ g.p = f.p ∧ g.s = f.s ∧ g.z = f.z

/-- The forms of CLR1, SET1 and NOT1 (R260): the instruction, the new bit as a function of the old, the bit number. -/
inductive BitForm (s : State) : Instr → (Bool → Bool) → Width → RM → Byte → Prop where
  | clr1Cl (w dst) : BitForm s (.clr1Cl w dst) (fun _ => false) w dst s.cl
  | clr1Imm (w dst k) : BitForm s (.clr1Imm w dst k) (fun _ => false) w dst k
  | set1Cl (w dst) : BitForm s (.set1Cl w dst) (fun _ => true) w dst s.cl
  | set1Imm (w dst k) : BitForm s (.set1Imm w dst k) (fun _ => true) w dst k
  | not1Cl (w dst) : BitForm s (.not1Cl w dst) (fun b => !b) w dst s.cl
  | not1Imm (w dst k) : BitForm s (.not1Imm w dst k) (fun b => !b) w dst k

/-! ### Moves, stack and control transfer in the spec's terms -/

/-- The forms of MOV between general registers, memory and immediates (R111 to R119): width, destination, value. The
direct-address forms are those of a `mod`/`mem` direct address, whose segment is DS0 unless overridden. -/
inductive MoveForm (s : State) : Instr → (w : Width) → RM → BitVec w.bits → Prop where
  | rmReg (w dst src) : MoveForm s (.movRmReg w dst src) w dst (s.reg w src)
  | regReg (w dst src) : MoveForm s (.movRegReg w dst src) w (.reg dst) (s.reg w src)
  | regMem (w dst src) : MoveForm s (.movRegMem w dst src) w (.reg dst) (s.readEA w src)
  | memByte (dst v) : MoveForm s (.movMemImm dst (.byte v)) .byte (.mem dst) v
  | memWord (dst v) : MoveForm s (.movMemImm dst (.word v)) .word (.mem dst) v
  | regByte (dst v) : MoveForm s (.movRegImm dst (.byte v)) .byte (.reg dst) v
  | regWord (dst v) : MoveForm s (.movRegImm dst (.word v)) .word (.reg dst) v
  | accDmem (w a) : MoveForm s (.movAccDmem w a) w (.reg .aw) (s.readEA w (.direct a))
  | dmemAcc (w a) : MoveForm s (.movDmemAcc w a) w (.mem (.direct a)) (s.reg w .aw)

/-- The value of each segment register (R12, R75). -/
abbrev segmentValue (s : State) : SReg → Word
  | .ds1 => s.ds1
  | .ps => s.ps
  | .ss => s.ss
  | .ds0 => s.ds0

/-- The rows of R76 by `mem`: the sum of the address registers, and the default segment register, SS where BP is a base
(R45). -/
inductive BaseForm (s : State) : Base → Word → SReg → Prop where
  | bwIx : BaseForm s .bwIx (s.bw + s.ix) .ds0
  | bwIy : BaseForm s .bwIy (s.bw + s.iy) .ds0
  | bpIx : BaseForm s .bpIx (s.bp + s.ix) .ss
  | bpIy : BaseForm s .bpIy (s.bp + s.iy) .ss
  | ix : BaseForm s .ix s.ix .ds0
  | iy : BaseForm s .iy s.iy .ds0
  | bp : BaseForm s .bp s.bp .ss
  | bw : BaseForm s .bw s.bw .ds0

/-- The columns of R76: the memory operand, its offset modulo 2^16, its default segment register. -/
inductive OffsetForm (s : State) : MemArg → Word → SReg → Prop where
  | direct (a) : OffsetForm s (.direct a) a .ds0
  | based {b v g} (h : BaseForm s b v g) : OffsetForm s (.based b) v g
  | disp8 {b v g} (d : Byte) (h : BaseForm s b v g) : OffsetForm s (.disp8 b d) (v + d.signExtend 16) g
  | disp16 {b v g} (d : Word) (h : BaseForm s b v g) : OffsetForm s (.disp16 b d) (v + d) g

/-- The forms of PUSH that push one word, and the word (R292 to R296). -/
inductive PushForm (s : State) : Instr → Word → Prop where
  | mem (m) : PushForm s (.pushMem m) (s.readEA .word m)
  | reg (r) : PushForm s (.pushReg r) (if r = .sp then s.sp - 2 else s.reg16 r)
  | sreg (r) : PushForm s (.pushSreg r) (s.sreg r)
  | psw : PushForm s .pushPsw s.pswWord
  | imm16 (v) : PushForm s (.pushImm16 v) v
  | imm8 (v) : PushForm s (.pushImm8 v) (sext16 v)

/-- The forms of CALL, the words they push and where they go (R301 to R305). -/
inductive CallForm (s : State) : Instr → List Word → Word → Word → Prop where
  | near (d) : CallForm s (.callNear d) [s.pc] s.ps (s.pc + d)
  | regptr (r) : CallForm s (.callRegptr r) [s.pc] s.ps (s.reg16 r)
  | memptr16 (m) : CallForm s (.callMemptr16 m) [s.pc] s.ps (s.readEA .word m)
  | far (o g) : CallForm s (.callFar o g) [s.ps, s.pc] g o
  | memptr32 (m) : CallForm s (.callMemptr32 m) [s.ps, s.pc] (s.readEAHigh m) (s.readEA .word m)

/-- The forms of BR and where they go (R310 to R315). -/
inductive BranchForm (s : State) : Instr → Word → Word → Prop where
  | near (d) : BranchForm s (.brNear d) s.ps (s.pc + d)
  | short (d) : BranchForm s (.brShort d) s.ps (s.pc + d.signExtend 16)
  | regptr (r) : BranchForm s (.brRegptr r) s.ps (s.reg16 r)
  | memptr16 (m) : BranchForm s (.brMemptr16 m) s.ps (s.readEA .word m)
  | far (o g) : BranchForm s (.brFar o g) g o
  | memptr32 (m) : BranchForm s (.brMemptr32 m) (s.readEAHigh m) (s.readEA .word m)

/-- The forms of RET: PS after, PC after, how many bytes SP moves up (R306 to R309). -/
inductive ReturnForm (s : State) : Instr → Word → Word → Word → Prop where
  | near : ReturnForm s .ret s.ps (s.readWord s.ss s.sp) 2
  | nearPop (v) : ReturnForm s (.retPop v) s.ps (s.readWord s.ss s.sp) (2 + v)
  | far : ReturnForm s .retFar (s.readWord s.ss (s.sp + 2)) (s.readWord s.ss s.sp) 4
  | farPop (v) : ReturnForm s (.retFarPop v) (s.readWord s.ss (s.sp + 2)) (s.readWord s.ss s.sp) (4 + v)

/-- The flag-testing branches and their conditions (R317 to R332), and BCWZ (R333). -/
inductive CondForm (s : State) : Instr → Byte → Prop → Prop where
  | bv (d) : CondForm s (.bv d) d (s.psw.v = true)
  | bnv (d) : CondForm s (.bnv d) d (s.psw.v = false)
  | bc (d) : CondForm s (.bc d) d (s.psw.cy = true)
  | bnc (d) : CondForm s (.bnc d) d (s.psw.cy = false)
  | be (d) : CondForm s (.be d) d (s.psw.z = true)
  | bne (d) : CondForm s (.bne d) d (s.psw.z = false)
  | bnh (d) : CondForm s (.bnh d) d (s.psw.cy = true ∨ s.psw.z = true)
  | bh (d) : CondForm s (.bh d) d (s.psw.cy = false ∧ s.psw.z = false)
  | bn (d) : CondForm s (.bn d) d (s.psw.s = true)
  | bp (d) : CondForm s (.bp d) d (s.psw.s = false)
  | bpe (d) : CondForm s (.bpe d) d (s.psw.p = true)
  | bpo (d) : CondForm s (.bpo d) d (s.psw.p = false)
  | blt (d) : CondForm s (.blt d) d (s.psw.s ≠ s.psw.v)
  | bge (d) : CondForm s (.bge d) d (s.psw.s = s.psw.v)
  | ble (d) : CondForm s (.ble d) d (s.psw.s ≠ s.psw.v ∨ s.psw.z = true)
  | bgt (d) : CondForm s (.bgt d) d (s.psw.s = s.psw.v ∧ s.psw.z = false)
  | bcwz (d) : CondForm s (.bcwz d) d (s.cw = 0)

/-- The loop branches and their conditions beside CW ≠ 0 (R334 to R336). -/
inductive LoopForm (s : State) : Instr → Byte → Prop → Prop where
  | dbnz (d) : LoopForm s (.dbnz d) d True
  | dbnze (d) : LoopForm s (.dbnze d) d (s.psw.z = true)
  | dbnzne (d) : LoopForm s (.dbnzne d) d (s.psw.z = false)

/-! ### Blocks, bit fields and I/O in the spec's terms -/

/-- An index register after one element (R140 (c)). -/
abbrev stepped (s : State) (w : Width) (r : Word) : Word :=
  match s.psw.dir, w with
  | false, .byte => r + 1
  | false, .word => r + 2
  | true, .byte => r - 1
  | true, .word => r - 2

/-- The block instructions, and which of them compare (R140). -/
inductive BlockForm : Instr → Bool → Prop where
  | movbk (w) : BlockForm (.movbk w) false
  | cmpbk (w) : BlockForm (.cmpbk w) true
  | cmpm (w) : BlockForm (.cmpm w) true
  | ldm (w) : BlockForm (.ldm w) false
  | stm (w) : BlockForm (.stm w) false
  | inm (w) : BlockForm (.inm w) false
  | outm (w) : BlockForm (.outm w) false

/-- The test of a repeat prefix after a compare (R141 to R144). -/
abbrev RepeatTest (r : Rep) (f : Psw) : Prop :=
  match r with
  | .rep => f.z = true
  | .repne => f.z = false
  | .repc => f.cy = true
  | .repnc => f.cy = false

/-- `v` is what a read of `w` from a port gives: the environment's next answer where it has one ready, else its answer
at that port, cut to the width (R50, R165). -/
abbrev ReadsPort (w : Width) (port : Word) (v : BitVec w.bits) (s t : State) : Prop :=
  (∀ x rest, s.ioIn = x :: rest → v = x.setWidth w.bits ∧ t.ioIn = rest ∧ t.draws = s.draws) ∧
    (s.ioIn = [] →
      v = (Config.ioAnswer s.draws port).setWidth w.bits ∧ t.ioIn = [] ∧ t.draws = s.draws + 1)

/-- Bit `k` of the bit string of the bytes from an offset (R160 (b)). -/
abbrev stringBit (s : State) (seg base : Word) (k : Nat) : Bool :=
  (s.readByte seg (base + BitVec.ofNat 16 (k / 8))).getLsbD (k % 8)

/-- The forms of EXT: the offset register and the length operand (R161, R162). -/
inductive ExtForm (s : State) : Instr → Reg → Nat → Prop where
  | reg (o l) : ExtForm s (.extRegReg o l) o (s.reg8 l).toNat
  | imm (o n) : ExtForm s (.extRegImm o n) o (n.toNat % 16)

/-- The forms of INS (R163, R164). -/
inductive InsForm (s : State) : Instr → Reg → Nat → Prop where
  | reg (o l) : InsForm s (.insRegReg o l) o (s.reg8 l).toNat
  | imm (o n) : InsForm s (.insRegImm o n) o (n.toNat % 16)

/-- The bit offset register and the index register after EXT or INS (R160 (c)). -/
abbrev NextField (offset : Reg) (b l : Nat) (t : State) (index index' : Word) : Prop :=
  if b + l + 1 ≤ 15 then (t.reg8 offset).toNat = b + l + 1 ∧ index' = index
  else (t.reg8 offset).toNat = b + l + 1 - 16 ∧ index' = index + 2

/-- The value of the packed BCD string of `n` bytes from an offset, its least significant byte first (R220). -/
def decimal (s : State) (seg base : Word) : Nat → Nat
  | 0 => 0
  | n + 1 => decimal s seg base n + 100 ^ n * bcdValue (s.readByte seg (base + BitVec.ofNat 16 n))

/-- Every byte of the strings of a BCD operation holds two digits (R220 (g)). -/
abbrev DigitsOk (s : State) : Prop :=
  ∀ k, k < bcdBytes s → bcdValid (s.readByte s.srcSeg (s.ix + BitVec.ofNat 16 k)) = true ∧
    bcdValid (s.readByte s.ds1 (s.iy + BitVec.ofNat 16 k)) = true

/-- An address is a byte of the destination string of a BCD operation. -/
abbrev InDestination (s : State) (a : Nat) : Prop :=
  ∃ k, k < bcdBytes s ∧ a = s.addr s.ds1 (s.iy + BitVec.ofNat 16 k)

/-- The string of `bcdBytes` bytes from IX and the one from IY share no byte. -/
abbrev StringsApart (s : State) : Prop :=
  ∀ k, k < bcdBytes s → ¬ InDestination s (s.addr s.srcSeg (s.ix + BitVec.ofNat 16 k))

/-! ### Codes that fit no printed word format -/

/-- The codes of R95 (a), (b), (c) and (f) and `MOV PS, src` (R116), each with the reason the decoder names. -/
inductive Unprinted : List Byte → Reject → Prop where
  /-- (a) LDEA, CHKIND, MOV DS1 and MOV DS0 with a pointer, POP mem16, MOV mem, imm with `mod = 11`. -/
  | memoryOnly (op b rest) (h : op ∈ ([0x8D, 0x62, 0xC4, 0xC5, 0x8F, 0xC6, 0xC7] : List Byte)) (h3 : modField b = 3) :
    Unprinted (op :: b :: rest) .memoryOnly
  /-- (a) CALL memptr32, BR memptr32, PUSH mem16 with `mod = 11`. -/
  | memoryOnlyFF (b rest) (h : midField b = 3 ∨ midField b = 5 ∨ midField b = 6) (h3 : modField b = 3) :
    Unprinted (0xFF :: b :: rest) .memoryOnly
  /-- (b) bits 5-3 of the second byte not 000 in POP mem16 and MOV mem, imm. -/
  | reservedField (op b rest) (h : op ∈ ([0x8F, 0xC6, 0xC7] : List Byte)) (h0 : midField b ≠ 0) (h3 : modField b ≠ 3) :
    Unprinted (op :: b :: rest) .reservedField
  /-- (b) bits 5-3 of the third byte not 000 in the bit instructions, ROL4 and ROR4. -/
  | reservedField3 (op b rest)
    (h : 0x10 ≤ op.toNat ∧ op.toNat ≤ 0x1F ∨ op = 0x28 ∨ op = 0x2A) (h0 : midField b ≠ 0) :
    Unprinted (0x0F :: op :: b :: rest) .reservedField
  /-- (b) bits 5-3 of the third byte not 000 in INS and EXT with a 4-bit length. -/
  | reservedFieldImm (op b rest) (h : op = 0x39 ∨ op = 0x3B) (h0 : midField b ≠ 0) (h3 : modField b = 3) :
    Unprinted (0x0F :: op :: b :: rest) .reservedField
  /-- (c) bit 5 of the second byte set in the moves from and to a segment register. -/
  | reservedBit (op b rest) (h : op = 0x8C ∨ op = 0x8E) (h5 : b.getLsbD 5 = true) :
    Unprinted (op :: b :: rest) .reservedBit
  /-- (f) INS and EXT with `mod` not 11. -/
  | registerOnly (op b rest) (h : op ∈ ([0x31, 0x33, 0x39, 0x3B] : List Byte)) (h3 : modField b ≠ 3) :
    Unprinted (0x0F :: op :: b :: rest) .registerOnly
  /-- MOV sreg with `sreg = 01`, PS. -/
  | loadPs (b rest) (h5 : b.getLsbD 5 = false) (h : sregField b = 1) : Unprinted (0x8E :: b :: rest) .loadPs

end Sys2Proof.Machine

/-! ## Reset, PSW, decoding, the step -/

/-- After reset MD is 1 and every other flag 0, the PSW word is F002H, MDWE is 0 (R20). -/
def Obligations.ResetLeavesOnlyModeFlagSet : Prop :=
  let f := State.reset.psw
  f.md = true ∧ f.v = false ∧ f.dir = false ∧ f.ie = false ∧ f.brk = false ∧ f.s = false ∧ f.z = false ∧
    f.ac = false ∧ f.p = false ∧ f.cy = false ∧ State.reset.mdwe = false ∧ State.reset.pswWord = 0xF002

/-- The values the spec decides for reset, and the first fetch at FFFF0H (R36, R440, R441; the spec's own decisions
D1, D3, D15). Of the model: log entries 4, 6 and 8. -/
def Obligations.ResetFetchesAtTopOfMemory : Prop :=
  let s := State.reset
  s.ps = 0xFFFF ∧ s.pc = 0 ∧ s.ss = 0 ∧ s.ds0 = 0 ∧ s.ds1 = 0 ∧ s.xaOn = false ∧ s.inhibit = false ∧
    s.halted = false ∧ s.prefixes = Prefixes.none ∧ s.addr s.ps s.pc = 0xFFFF0

/-- The invariant holds right after reset. Of the model: log entries 2, 5 and 17. -/
def Obligations.InvariantHoldsAtReset : Prop := State.reset.Inv

/-- A step runs the instruction its bytes decode to: the meaning is applied where PC is past the instruction, the start
and the window are noted at its first byte, the old window is closed, and what follows it is `finish` (R88, R410 to
R412), which is given BRK as the step began (the spec's decision D44). `prefixes = none` marks the first byte of an
instruction (R86). Of the model: log entries 13, 17, 19, 21 and 44. -/
def Obligations.StepRunsDecodedInstruction : Prop :=
  ∀ (s : State) (i : Instr) (rest : List Byte), s.halted = false → s.inProgress = none →
    (s.emulating = true → s.interruptDue = false) → decode s.codeMap s.fetchBytes = .ok (i, rest) →
    s.staleFetch (6 - rest.length) = false →
    let n : Word := BitVec.ofNat 16 (6 - rest.length)
    let u := { s with
      pc := s.pc + n, inhibit := false
      start := if s.prefixes = Prefixes.none then s.pc else s.start
      window := if s.prefixes = Prefixes.none then s.inhibit else s.window }
    step s =
      match exec i u with
      | .next t => .next (t.finish i s.psw.brk)
      | .fault r => .fault r
      | .refused r => .refused r

/-- Words written out from the spec's encodings decode to their instructions: MOV AW, BW; MOV DS1:[IY], DL after its
prefix; MOV WORD PTR [2000H], 1234H; OR AW, sign-extended 80H (R254); MOVBKW; EXT CL, DL; ROL4 BL;
SHL WORD PTR [IY], 12; PREPARE 6, 4 (its operands' byte order is general knowledge to the spec too, R343); BRKEM 40H;
CALLN 40H; BR WORD PTR [BW + 1000H] (R70 to R97). Of the model: log entry 50. -/
def Obligations.SpecWordsDecode : Prop :=
  decode .emuNative [0x8B, 0xC3] = .ok (.movRegReg .word .aw .bw, []) ∧
    decode .emuNative [0x88, 0x15] = .ok (.movRmReg .byte (.mem (.based .iy)) .dw, []) ∧
    decode .xaNative [0xC7, 0x06, 0x00, 0x20, 0x34, 0x12] =
      .ok (.movMemImm (.direct 0x2000) (.word 0x1234), []) ∧
    decode .emuNative [0x83, 0xC8, 0x80] = .ok (.orRmImm (.reg .aw) (.sext83 0x80), []) ∧
    decode .emuNative [0xA5] = .ok (.movbk .word, []) ∧
    decode .emuNative [0x0F, 0x33, 0xD1] = .ok (.extRegReg .cw .dw, []) ∧
    decode .emuNative [0x0F, 0x28, 0xC3] = .ok (.rol4 (.reg .bw), []) ∧
    decode .emuNative [0xC1, 0x25, 0x0C] = .ok (.shlImm .word (.mem (.based .iy)) 12, []) ∧
    decode .emuNative [0xC8, 0x06, 0x00, 0x04] = .ok (.prepare 6 4, []) ∧
    decode .emuNative [0x0F, 0xFF, 0x40] = .ok (.brkem 0x40, []) ∧
    decode .emulation [0xED, 0xED, 0x40] = .ok (.calln 0x40, []) ∧
    decode .xaNative [0xFF, 0xA7, 0x00, 0x10] = .ok (.brMemptr16 (.disp16 .bw 0x1000), [])

/-- Decoding reads every well-formed instruction back from its own bytes, whatever follows them (R70 to R101). -/
def Obligations.DecodeReadsBackEncode : Prop :=
  ∀ (m : CodeMap) (i : Instr) (rest : List Byte), i.wf m = true → decode m (encode i ++ rest) = .ok (i, rest)

/-- Codes that fit no printed word format are rejected by name in native mode, and a step that finds one at PS:PC is
refused: memory-only instructions with `mod = 11` (8DH, 62H, C4H, C5H, 8FH, C6H, C7H, FFH/3, FFH/5, FFH/6), bits 5-3 not
000 (8FH, C6H, C7H, the third byte of 0FH 10H to 1FH, 28H, 2AH, 39H, 3BH), bit 5 of the second byte of 8CH and 8EH,
INS and EXT with `mod` not 11, MOV PS, src (R95 (a), (b), (c), (f), R116). Of the model: log entry 22. -/
def Obligations.UnprintedCodesAreRejected : Prop :=
  (∀ (c : CodeMap) (bytes : List Byte) (r : Reject), c ≠ .emulation → 6 ≤ bytes.length → Unprinted bytes r →
      decode c bytes = .error r) ∧
    ∀ (s : State) (r : Reject), s.halted = false → s.inProgress = none → s.emulating = false →
      Unprinted s.fetchBytes r → step s = .refused (.undecodable r)

/-- PSW as a word: the ten flags at their places, 1 in bits 14, 13, 12 and 1, 0 in bits 5 and 3, and bit 15 always 1 on
V33A and V53A (R16, R17). -/
def Obligations.PswWordHasItsLayout : Prop :=
  ∀ (c : Cls) (f : Psw),
    let w := f.toWord c
    w.getLsbD 15 = (c == .xa || f.md) ∧ w.getLsbD 14 = true ∧ w.getLsbD 13 = true ∧ w.getLsbD 12 = true ∧
      w.getLsbD 11 = f.v ∧ w.getLsbD 10 = f.dir ∧ w.getLsbD 9 = f.ie ∧ w.getLsbD 8 = f.brk ∧ w.getLsbD 7 = f.s ∧
      w.getLsbD 6 = f.z ∧ w.getLsbD 5 = false ∧ w.getLsbD 4 = f.ac ∧ w.getLsbD 3 = false ∧ w.getLsbD 2 = f.p ∧
      w.getLsbD 1 = true ∧ w.getLsbD 0 = f.cy

/-- The halves of AW, CW, DW and BW: a write to a half changes that half alone, a write to the word register changes
both, the word is its halves, and with W = 0 the codes 000 to 111 name AL, CL, DL, BL, AH, CH, DH, BH (R8). -/
def Obligations.ByteHalvesAliasWordRegisters : Prop :=
  ∀ (s : State) (r : Reg) (b : Byte) (v : Word),
    (s.setReg8 r b).reg8 r = b ∧ OnlyReg .byte r s (s.setReg8 r b) ∧
      s.aw = s.reg8 (.ofCode 4) ++ s.reg8 (.ofCode 0) ∧ s.cw = s.reg8 (.ofCode 5) ++ s.reg8 (.ofCode 1) ∧
      s.dw = s.reg8 (.ofCode 6) ++ s.reg8 (.ofCode 2) ∧ s.bw = s.reg8 (.ofCode 7) ++ s.reg8 (.ofCode 3) ∧
      (let t := s.setReg16 .aw v
       t.reg8 (.ofCode 4) ++ t.reg8 (.ofCode 0) = v) ∧
      (let t := s.setReg16 .cw v
       t.reg8 (.ofCode 5) ++ t.reg8 (.ofCode 1) = v) ∧
      (let t := s.setReg16 .dw v
       t.reg8 (.ofCode 6) ++ t.reg8 (.ofCode 2) = v) ∧
      (let t := s.setReg16 .bw v
       t.reg8 (.ofCode 7) ++ t.reg8 (.ofCode 3) = v)

/-- A word written is read back, its low-order byte at the offset and its high-order byte at the next place, and no
other byte changes (R42; R43: at any offset, odd ones too). Of the model: log entries 8, 10 and 11. -/
def Obligations.WordsAreLittleEndian : Prop :=
  ∀ (s : State) (seg off v : Word), s.NormalAddresses →
    let t := s.writeWord seg off v
    t.readWord seg off = v ∧ t.mem.read (s.addr seg off) = v.extractLsb' 0 8 ∧
      t.mem.read (s.addrHigh seg off) = v.extractLsb' 8 8 ∧ OnlyStored .word seg off s t ∧
      (off ≠ 0xFFFF → s.addrHigh seg off = s.addr seg (off + 1)) ∧
      s.addr seg off = (seg.toNat * 16 + off.toNat) % 2 ^ 20

/-! ## Arithmetic and logic -/

/-- ADD, ADDC, SUB, SUBC, AND, OR and XOR complete in all six operand forms with the result and the flags of their rule
in the destination, and nothing else written (R180 to R184, R250 to R254). -/
def Obligations.AluWritesResultAndFlags : Prop :=
  ∀ (s : State) (i : Instr) (o : AluOp) (w : Width) (dst : RM) (b : BitVec w.bits),
    AluForm s i o w dst b → o ≠ .cmp →
    ∃ t r, exec i s = .next t ∧ AluResult o (s.readRM w dst) b r s.psw t.psw ∧ Writes w dst r s t

/-- CMP in all six operand forms and TEST in all its forms complete: they write the flags of the subtraction, or of the
AND, and nothing else (R185, R256). -/
def Obligations.CompareAndTestWriteOnlyFlags : Prop :=
  ∀ (s : State) (i : Instr) (w : Width) (dst : RM) (b : BitVec w.bits),
    (AluForm s i .cmp w dst b →
      ∃ t r, exec i s = .next t ∧ AluResult .cmp (s.readRM w dst) b r s.psw t.psw ∧ t = { s with psw := t.psw }) ∧
    (TestForm s i w dst b →
      ∃ t r, exec i s = .next t ∧ AluResult .and (s.readRM w dst) b r s.psw t.psw ∧
        t = { s with psw := t.psw, draws := t.draws })

/-- INC and DEC complete: the sum or difference with 1 is written, CY is unaffected (R186, R187). -/
def Obligations.IncrementKeepsCarry : Prop :=
  ∀ (s : State) (i : Instr) (up : Bool) (w : Width) (dst : RM), CountForm i up w dst →
    ∃ t r, exec i s = .next t ∧ SameControlFlags s.psw t.psw ∧ t.psw.cy = s.psw.cy ∧ t.draws = s.draws ∧
      (if up then IsSum (s.readRM w dst) 1 false r t.psw else IsDifference (s.readRM w dst) 1 false r t.psw) ∧
      Writes w dst r s t

/-- NEG completes with the flags of `0 − dst`, CY set unless the operand is 0; NOT completes with every bit inverted
and no flag written (R188, R189). -/
def Obligations.ComplementsComplete : Prop :=
  ∀ (s : State) (w : Width) (dst : RM),
    (∃ t r, exec (.negRm w dst) s = .next t ∧ IsDifference 0 (s.readRM w dst) false r t.psw ∧
      SameControlFlags s.psw t.psw ∧ (t.psw.cy = true ↔ s.readRM w dst ≠ 0) ∧ Writes w dst r s t) ∧
    (∃ t r, exec (.notRm w dst) s = .next t ∧ (r.toNat + (s.readRM w dst).toNat = 2 ^ w.bits - 1) ∧
      t.psw = s.psw ∧ t.draws = s.draws ∧ Writes w dst r s t)

/-- MULU and MUL complete: the whole product stands in AW, or in DW and AW, CY and V tell that it needs more than half
of it, and only AW (and DW) and the flags are written (R190, R191). MUL with a destination, a source and an immediate
completes: the low-order word of the signed product goes to the destination, CY and V tell that the product is no signed
word (R200; that reading of the flags is the spec's decision D24). Of the model: log entry 27. -/
def Obligations.MultiplicationIsExact : Prop :=
  ∀ (s : State) (src : RM) (dst : Reg) (k : Word) (b : Byte),
    (∃ t, exec (.muluRm .byte src) s = .next t ∧ t.aw.toNat = s.al.toNat * (s.readRM .byte src).toNat ∧
      (t.psw.cy = true ↔ 2 ^ 8 ≤ t.aw.toNat) ∧ t.psw.v = t.psw.cy ∧ SameControlFlags s.psw t.psw ∧
      t = { s with aw := t.aw, psw := t.psw, draws := t.draws }) ∧
    (∃ t, exec (.muluRm .word src) s = .next t ∧
      2 ^ 16 * t.dw.toNat + t.aw.toNat = s.aw.toNat * (s.readRM .word src).toNat ∧
      (t.psw.cy = true ↔ t.dw ≠ 0) ∧ t.psw.v = t.psw.cy ∧ SameControlFlags s.psw t.psw ∧
      t = { s with aw := t.aw, dw := t.dw, psw := t.psw, draws := t.draws }) ∧
    (∃ t, exec (.mulRm .byte src) s = .next t ∧ t.aw.toInt = s.al.toInt * (s.readRM .byte src).toInt ∧
      (t.psw.cy = true ↔ ¬ FitsSigned 8 t.aw.toInt) ∧ t.psw.v = t.psw.cy ∧ SameControlFlags s.psw t.psw ∧
      t = { s with aw := t.aw, psw := t.psw, draws := t.draws }) ∧
    (∃ t, exec (.mulRm .word src) s = .next t ∧
      2 ^ 16 * t.dw.toInt + t.aw.toNat = s.aw.toInt * (s.readRM .word src).toInt ∧
      (t.psw.cy = true ↔ ¬ FitsSigned 16 (s.aw.toInt * (s.readRM .word src).toInt)) ∧ t.psw.v = t.psw.cy ∧
      SameControlFlags s.psw t.psw ∧ t = { s with aw := t.aw, dw := t.dw, psw := t.psw, draws := t.draws }) ∧
    (∀ i, (i = .mulRegRmImm16 dst src k ∨ i = .mulRegRmImm8 dst src b ∧ k = b.signExtend 16) →
      ∃ t, exec i s = .next t ∧ t.reg16 dst = BitVec.ofInt 16 ((s.readRM .word src).toInt * k.toInt) ∧
        (t.psw.cy = true ↔ ¬ FitsSigned 16 ((s.readRM .word src).toInt * k.toInt)) ∧ t.psw.v = t.psw.cy ∧
        SameControlFlags s.psw t.psw ∧ OnlyReg .word dst s t ∧ RegisterFrame s t)

/-- Division completes when the divisor is not 0 and the quotient is in its range, and writes only AW (and DW) and the
flags. DIVU: quotient and remainder are those of the dividend (R202). DIV: the remainder is smaller than the divisor and
has the sign of the dividend or is 0, so the quotient is truncated toward zero (R203, the spec's decision D25).
Of the model: log entry 28. -/
def Obligations.DivisionCompletesInRange : Prop :=
  ∀ (s : State) (src : RM),
    (let d := (s.readRM .byte src).toNat
     d ≠ 0 → s.aw.toNat / d < 2 ^ 8 →
     ∃ t, exec (.divuRm .byte src) s = .next t ∧ t.al.toNat * d + t.ah.toNat = s.aw.toNat ∧ t.ah.toNat < d ∧
       SameControlFlags s.psw t.psw ∧ t = { s with aw := t.aw, psw := t.psw, draws := t.draws }) ∧
    (let d := (s.readRM .word src).toNat
     let a := 2 ^ 16 * s.dw.toNat + s.aw.toNat
     d ≠ 0 → a / d < 2 ^ 16 →
     ∃ t, exec (.divuRm .word src) s = .next t ∧ t.aw.toNat * d + t.dw.toNat = a ∧ t.dw.toNat < d ∧
       SameControlFlags s.psw t.psw ∧ t = { s with aw := t.aw, dw := t.dw, psw := t.psw, draws := t.draws }) ∧
    (let d := (s.readRM .byte src).toInt
     let a := s.aw.toInt
     d ≠ 0 → -127 ≤ a.tdiv d → a.tdiv d ≤ 127 →
     ∃ t, exec (.divRm .byte src) s = .next t ∧ t.al.toInt * d + t.ah.toInt = a ∧
       t.ah.toInt.natAbs < d.natAbs ∧ 0 ≤ t.ah.toInt * a ∧ SameControlFlags s.psw t.psw ∧
       t = { s with aw := t.aw, psw := t.psw, draws := t.draws }) ∧
    (let d := (s.readRM .word src).toInt
     let a := 2 ^ 16 * s.dw.toInt + s.aw.toNat
     d ≠ 0 → -32767 ≤ a.tdiv d → a.tdiv d ≤ 32767 →
     ∃ t, exec (.divRm .word src) s = .next t ∧ t.aw.toInt * d + t.dw.toInt = a ∧
       t.dw.toInt.natAbs < d.natAbs ∧ 0 ≤ t.dw.toInt * a ∧ SameControlFlags s.psw t.psw ∧
       t = { s with aw := t.aw, dw := t.dw, psw := t.psw, draws := t.draws })

/-- A divisor of 0, and a byte quotient out of range, enter vector 0 with the next instruction saved; the registers of
quotient and remainder and the six status flags are open, nothing else has changed (R201 to R203, R404 (b)).
Of the model: log entries 16, 28 and 46. -/
def Obligations.DivideErrorEntersVectorZero : Prop :=
  ∀ (s : State) (w : Width) (src : RM) (i : Instr),
    (i = .divuRm w src ∧
        ((s.readRM w src).toNat = 0 ∨ 2 ^ w.bits ≤ (s.dividend w).toNat / (s.readRM w src).toNat) ∨
      i = .divRm w src ∧
        ((s.readRM w src).toInt = 0 ∨
          ¬ ((s.signedDividend w).tdiv (s.readRM w src).toInt).natAbs < 2 ^ (w.bits - 1))) →
    ∃ u t, exec i s = .next t ∧ Enters 0 s.pc u t ∧ SameControlFlags s.psw u.psw ∧
      u = { s with aw := u.aw, dw := u.dw, psw := u.psw, draws := u.draws } ∧ (w = .byte → u.dw = s.dw)

/-- A shift or rotate by 1 completes: one step, V telling that the top bit changed (R270, R272, R274 to R282; the step
of ROLC is general knowledge to the spec too, R281). Of the model: log entry 50. -/
def Obligations.ShiftByOneCompletes : Prop :=
  ∀ (s : State) (o : ShiftOp) (w : Width) (dst : RM),
    ∃ t r, exec (oneForm o w dst) s = .next t ∧ ShiftResult o 1 (s.readRM w dst) s.psw.cy r t.psw.cy ∧
      ShiftFlags o r s.psw t.psw ∧
      (t.psw.v = true ↔ r.getLsbD (w.bits - 1) ≠ (s.readRM w dst).getLsbD (w.bits - 1)) ∧ Writes w dst r s t

/-- A shift or rotate by CL or an immediate count completes. From 1 to 255 it is that many steps, with V open (R271, R274
to R282). By 0 the operand is unchanged, CY and V are open, and for a shift AC, P, S and Z too (R273, the spec's decision
D31; the step of ROLC is general knowledge to the spec too, R281). Of the model: log entries 32 and 50. -/
def Obligations.ShiftByCountCompletes : Prop :=
  ∀ (s : State) (o : ShiftOp) (w : Width) (dst : RM) (i : Instr) (k : Byte),
    (i = clForm o w dst ∧ k = s.cl ∨ i = immForm o w dst k) →
    (k ≠ 0 →
      ∃ t r, exec i s = .next t ∧ ShiftResult o k.toNat (s.readRM w dst) s.psw.cy r t.psw.cy ∧
        ShiftFlags o r s.psw t.psw ∧ Writes w dst r s t) ∧
    (k = 0 →
      ∃ t, exec i s = .next t ∧ SameControlFlags s.psw t.psw ∧ Writes w dst (s.readRM w dst) s t ∧
        (match o with
         | .shl | .shr | .shra => True
         | _ => t.psw.ac = s.psw.ac ∧ t.psw.p = s.psw.p ∧ t.psw.s = s.psw.s ∧ t.psw.z = s.psw.z))

/-- CLR1, SET1 and NOT1 of a bit complete: that bit alone of the operand changes, the bit number taken modulo the
operand's width, and no flag is written. TEST1 completes: Z is the inverse of the bit, CY and V are reset, AC, P and S are
open, nothing else is written (R260 to R264). -/
def Obligations.BitInstructionsActOnOneBit : Prop :=
  ∀ (s : State) (i : Instr) (f : Bool → Bool) (w : Width) (dst : RM) (k : Byte),
    (BitForm s i f w dst k →
      ∃ t r, exec i s = .next t ∧ t.psw = s.psw ∧ t.draws = s.draws ∧ Writes w dst r s t ∧
        ∀ j, j < w.bits →
          r.getLsbD j =
            if j = k.toNat % w.bits then f ((s.readRM w dst).getLsbD j) else (s.readRM w dst).getLsbD j) ∧
    ((i = .test1Cl w dst ∧ k = s.cl ∨ i = .test1Imm w dst k) →
      ∃ t, exec i s = .next t ∧ t.psw.z = !(s.readRM w dst).getLsbD (k.toNat % w.bits) ∧ t.psw.cy = false ∧
        t.psw.v = false ∧ SameControlFlags s.psw t.psw ∧ t = { s with psw := t.psw, draws := t.draws })

/-- NOT1 CY, CLR1 CY, SET1 CY, CLR1 DIR, SET1 DIR and DI have the one-byte codes F5H, F8H, F9H, FCH, FDH and FAH, and
complete and write their one flag (R265 to R269, R360). -/
def Obligations.FlagInstructionsWriteOneFlag : Prop :=
  ∀ (s : State) (c : CodeMap) (rest : List Byte),
    (c ≠ .emulation →
      decode c (0xF5 :: rest) = .ok (.not1Cy, rest) ∧ decode c (0xF8 :: rest) = .ok (.clr1Cy, rest) ∧
        decode c (0xF9 :: rest) = .ok (.set1Cy, rest) ∧ decode c (0xFC :: rest) = .ok (.clr1Dir, rest) ∧
        decode c (0xFD :: rest) = .ok (.set1Dir, rest) ∧ decode c (0xFA :: rest) = .ok (.di, rest)) ∧
    exec .not1Cy s = .next { s with psw := { s.psw with cy := !s.psw.cy } } ∧
      exec .clr1Cy s = .next { s with psw := { s.psw with cy := false } } ∧
      exec .set1Cy s = .next { s with psw := { s.psw with cy := true } } ∧
      exec .clr1Dir s = .next { s with psw := { s.psw with dir := false } } ∧
      exec .set1Dir s = .next { s with psw := { s.psw with dir := true } } ∧
      exec .di s = .next { s with psw := { s.psw with ie := false } }

/-! ## BCD and data conversion -/

/-- ADJ4A, ADJ4S, ADJBA and ADJBS complete on every operand: AC tells that the low digit needed adjustment, AL is
adjusted by 6 and 60H or by 6 with AH by 1, and only AW and the flags are written (R230 to R233).
Of the model: log entry 30. -/
def Obligations.AdjustmentsComplete : Prop :=
  ∀ s : State,
    let low := decide (9 < s.al.toNat % 16) || s.psw.ac
    let step6 : Byte := if low then 6 else 0
    (∃ t, exec .adj4a s = .next t ∧ t.psw.ac = low ∧
      (t.psw.cy = true ↔ 0x9F < (s.al + step6).toNat ∨ s.psw.cy = true) ∧
      t.al = s.al + step6 + (if t.psw.cy then 0x60 else 0) ∧ SignZeroParity t.al t.psw ∧ t.ah = s.ah ∧
      SameControlFlags s.psw t.psw ∧ t = { s with aw := t.aw, psw := t.psw, draws := t.draws }) ∧
    (∃ t, exec .adj4s s = .next t ∧ t.psw.ac = low ∧
      (t.psw.cy = true ↔ 0x9F < (s.al - step6).toNat ∨ s.psw.cy = true) ∧
      t.al = s.al - step6 - (if t.psw.cy then 0x60 else 0) ∧ SignZeroParity t.al t.psw ∧ t.ah = s.ah ∧
      SameControlFlags s.psw t.psw ∧ t = { s with aw := t.aw, psw := t.psw, draws := t.draws }) ∧
    (∃ t, exec .adjba s = .next t ∧ t.psw.ac = low ∧ t.psw.cy = low ∧
      t.al.toNat = (s.al + step6).toNat % 16 ∧ t.ah = s.ah + (if low then 1 else 0) ∧
      SameControlFlags s.psw t.psw ∧ t = { s with aw := t.aw, psw := t.psw, draws := t.draws }) ∧
    (∃ t, exec .adjbs s = .next t ∧ t.psw.ac = low ∧ t.psw.cy = low ∧
      t.al.toNat = (s.al - step6).toNat % 16 ∧ t.ah = s.ah - (if low then 1 else 0) ∧
      SameControlFlags s.psw t.psw ∧ t = { s with aw := t.aw, psw := t.psw, draws := t.draws })

/-- CVTBD, CVTDB, CVTBW and CVTWL complete with the values of their rules (R244 to R247).
Of the model: log entry 31. -/
def Obligations.ConversionsComplete : Prop :=
  ∀ s : State,
    (∃ t, exec .cvtbd s = .next t ∧ 10 * t.ah.toNat + t.al.toNat = s.al.toNat ∧ t.al.toNat < 10 ∧
      SignZeroParity t.al t.psw ∧ SameControlFlags s.psw t.psw ∧
      t = { s with aw := t.aw, psw := t.psw, draws := t.draws }) ∧
    (∃ t, exec .cvtdb s = .next t ∧ t.al.toNat = (s.ah.toNat * 10 + s.al.toNat) % 256 ∧ t.ah = 0 ∧
      SignZeroParity t.al t.psw ∧ SameControlFlags s.psw t.psw ∧
      t = { s with aw := t.aw, psw := t.psw, draws := t.draws }) ∧
    (∃ t, exec .cvtbw s = .next t ∧ t.al = s.al ∧ t.aw.toInt = s.al.toInt ∧ t = { s with aw := t.aw }) ∧
    (∃ t, exec .cvtwl s = .next t ∧ 2 ^ 16 * t.dw.toInt + s.aw.toNat = s.aw.toInt ∧ t = { s with dw := t.dw })

/-- ROL4 and ROR4 complete: the three digits ALL, high and low of the destination move round one place, AL's high digit
is open, and no flag is written; with AL as destination only AL changes (R224, R225).
Of the model: log entries 47 and 50. -/
def Obligations.DigitRotationsComplete : Prop :=
  ∀ (s : State) (dst : RM),
    (∃ t, exec (.rol4 dst) s = .next t ∧ t.psw = s.psw ∧
      (dst ≠ .reg .aw →
        t.al.toNat % 16 = (s.readRM .byte dst).toNat / 16 ∧
          ∃ u r, Writes .byte dst r s u ∧
            r.toNat = 16 * ((s.readRM .byte dst).toNat % 16) + s.al.toNat % 16 ∧
            t = { u with aw := t.aw, psw := t.psw, draws := t.draws } ∧ t.ah = u.ah) ∧
      (dst = .reg .aw → t = { s with aw := t.aw, draws := t.draws } ∧ t.ah = s.ah)) ∧
    (∃ t, exec (.ror4 dst) s = .next t ∧ t.psw = s.psw ∧
      (dst ≠ .reg .aw →
        t.al.toNat % 16 = (s.readRM .byte dst).toNat % 16 ∧
          ∃ u r, Writes .byte dst r s u ∧
            r.toNat = 16 * (s.al.toNat % 16) + (s.readRM .byte dst).toNat / 16 ∧
            t = { u with aw := t.aw, psw := t.psw, draws := t.draws } ∧ t.ah = u.ah) ∧
      (dst = .reg .aw → t = { s with aw := t.aw, draws := t.draws } ∧ t.ah = s.ah))

/-- ADD4S, SUB4S and CMP4S complete for every length from 1 to 254 digits, on any bytes: IX, IY, CL and every other
register keep their values, ADD4S and SUB4S write no byte outside the destination string, CMP4S writes none; CL = 0 and
CL = 255 are refused (R220 to R223). Of the model: log entries 48 and 49. -/
def Obligations.BcdStringsComplete : Prop :=
  ∀ (s : State) (i : Instr), (i = .add4s ∨ i = .sub4s ∨ i = .cmp4s) →
    (1 ≤ s.cl.toNat → s.cl.toNat ≤ 254 →
      ∃ t, exec i s = .next t ∧ SameControlFlags s.psw t.psw ∧ StoreFrame s t ∧
        (∀ a, ¬ InDestination s a → t.mem.read a = s.mem.read a) ∧ (i = .cmp4s → t.mem = s.mem)) ∧
    (s.cl = 0 ∨ s.cl = 255 → exec i s = .refused .bcdLength)

/-- SUB4S and CMP4S subtract decimal numbers: with valid digits CY tells that the destination is smaller and Z that the
difference is 0; CMP4S stores nothing, and SUB4S leaves the difference in the destination string where the strings share no
byte (R222, R223; the whole string in one step by the spec's decision D26). Of the model: log entry 29. -/
def Obligations.BcdSubtractionSubtractsDecimals : Prop :=
  ∀ s : State, 1 ≤ s.cl.toNat → s.cl.toNat ≤ 254 → DigitsOk s →
    let x := decimal s s.ds1 s.iy (bcdBytes s)
    let y := decimal s s.srcSeg s.ix (bcdBytes s)
    (∃ t, exec .cmp4s s = .next t ∧ (t.psw.cy = true ↔ x < y) ∧ (t.psw.z = true ↔ x = y) ∧ t.mem = s.mem) ∧
    (s.NormalAddresses → StringsApart s →
      ∃ t, exec .sub4s s = .next t ∧
        decimal t s.ds1 s.iy (bcdBytes s) + y = x + 100 ^ bcdBytes s * t.psw.cy.toNat ∧
        (t.psw.cy = true ↔ x < y) ∧ (t.psw.z = true ↔ x = y))

/-- ADD4S adds decimal numbers: with valid digits in strings that share no byte, the destination string and CY hold the
sum, and Z tells that the string is 0 (R221; the whole string in one step by the spec's decision D26).
Of the model: log entry 29. -/
def Obligations.BcdAddAddsDecimals : Prop :=
  ∀ s : State, 1 ≤ s.cl.toNat → s.cl.toNat ≤ 254 → DigitsOk s → s.NormalAddresses → StringsApart s →
    ∃ t, exec .add4s s = .next t ∧
      decimal t s.ds1 s.iy (bcdBytes s) + 100 ^ bcdBytes s * t.psw.cy.toNat =
        decimal s s.ds1 s.iy (bcdBytes s) + decimal s s.srcSeg s.ix (bcdBytes s) ∧
      (t.psw.z = true ↔ decimal t s.ds1 s.iy (bcdBytes s) = 0)

/-! ## Data transfer -/

/-- MOV between general registers, memory and immediates completes in every form, and writes no flag (R110 to R119). -/
def Obligations.MoveWritesItsDestination : Prop :=
  ∀ (s : State) (i : Instr) (w : Width) (dst : RM) (v : BitVec w.bits), MoveForm s i w dst v →
    ∃ t, exec i s = .next t ∧ t.psw = s.psw ∧ t.draws = s.draws ∧ Writes w dst v s t

/-- MOV to and from a segment register, MOV DS0 and MOV DS1 with a 32-bit pointer, and POP sreg complete and open the
window; no flag changes (R116, R117, R120, R340; the window after R120 is the spec's decision D20).
Of the model: log entry 23. -/
def Obligations.SegmentLoadsOpenTheWindow : Prop :=
  ∀ (s : State) (g : SReg) (o : RM) (r : Reg) (m : MemArg),
    exec (.movSregRm .ds1 o) s = .next { s with ds1 := s.readRM .word o, inhibit := true } ∧
      exec (.movSregRm .ss o) s = .next { s with ss := s.readRM .word o, inhibit := true } ∧
      exec (.movSregRm .ds0 o) s = .next { s with ds0 := s.readRM .word o, inhibit := true } ∧
      (∃ u t, exec (.movRmSreg o g) s = .next t ∧ Writes .word o (segmentValue s g) s u ∧ u.psw = s.psw ∧
        u.draws = s.draws ∧ t = { u with inhibit := true }) ∧
      (∃ t, exec (.movDs0RegMem r m) s = .next t ∧ t.reg16 r = s.readWord (s.eaSeg m) (s.ea m) ∧
        t.ds0 = s.readWord (s.eaSeg m) (s.ea m + 2) ∧
        t = { s.setReg16 r (t.reg16 r) with ds0 := t.ds0, inhibit := true }) ∧
      (∃ t, exec (.movDs1RegMem r m) s = .next t ∧ t.reg16 r = s.readWord (s.eaSeg m) (s.ea m) ∧
        t.ds1 = s.readWord (s.eaSeg m) (s.ea m + 2) ∧
        t = { s.setReg16 r (t.reg16 r) with ds1 := t.ds1, inhibit := true }) ∧
      exec (.popSreg .ds1) s = .next { s with sp := s.sp + 2, ds1 := s.readWord s.ss s.sp, inhibit := true } ∧
      exec (.popSreg .ss) s = .next { s with sp := s.sp + 2, ss := s.readWord s.ss s.sp, inhibit := true } ∧
      exec (.popSreg .ds0) s = .next { s with sp := s.sp + 2, ds0 := s.readWord s.ss s.sp, inhibit := true }

/-- XCH completes in its three forms: each operand holds what the other held, and no flag changes (R125 to R127). -/
def Obligations.ExchangeSwapsOperands : Prop :=
  ∀ (s : State) (w : Width) (a b : Reg) (m : MemArg),
    (∃ t, exec (.xchRegReg w a b) s = .next t ∧ t.reg w a = s.reg w b ∧ t.reg w b = s.reg w a ∧
      (∀ q, q ≠ a → q ≠ b → t.reg w q = s.reg w q) ∧
      (w = .byte → t.sp = s.sp ∧ t.bp = s.bp ∧ t.ix = s.ix ∧ t.iy = s.iy) ∧ RegisterFrame s t ∧ t.psw = s.psw ∧
      t.draws = s.draws) ∧
    (∃ u t, exec (.xchMemReg w m a) s = .next t ∧ Writes w (.mem m) (s.reg w a) s u ∧
      Writes w (.reg a) (s.readEA w m) u t ∧ t.psw = s.psw ∧ t.draws = s.draws) ∧
    (∃ t, exec (.xchAwReg a) s = .next t ∧ t.reg16 a = s.aw ∧ t.aw = s.reg16 a ∧
      (∀ q, q ≠ a → q ≠ .aw → t.reg16 q = s.reg16 q) ∧ RegisterFrame s t ∧ t.psw = s.psw ∧ t.draws = s.draws)

/-- The effective address of a memory operand is that of its row and column of R76, its segment register the default of
R45 (SS where BP is a base, else DS0; PRESUMED by the spec, D2) unless an override names another, and so for a source
operand, with DS0 the default (R46). LDEA loads the effective address and reads no memory; TRANS loads AL from the table
at BW; MOV PSW, AH loads five flags; MOV AH, PSW loads AH, its bits 5, 3 and 1 open (R121 to R124).
Of the model: log entries 9 and 24. -/
def Obligations.AddressTableAndFlagMovesComplete : Prop :=
  ∀ (s : State) (r : Reg) (m : MemArg),
    (∀ off g, OffsetForm s m off g →
      s.ea m = off ∧ (s.prefixes.override = none → s.eaSeg m = segmentValue s g) ∧
        ∀ o, s.prefixes.override = some o → s.eaSeg m = segmentValue s o) ∧
      (s.prefixes.override = none → s.srcSeg = s.ds0) ∧
      (∀ o, s.prefixes.override = some o → s.srcSeg = segmentValue s o) ∧
      (∃ t, exec (.ldea r m) s = .next t ∧ Writes .word (.reg r) (s.ea m) s t ∧ t.psw = s.psw ∧ t.draws = s.draws) ∧
      (∃ t, exec .trans s = .next t ∧
        Writes .byte (.reg .aw) (s.mem.read (s.addr s.srcSeg (s.bw + s.al.setWidth 16))) s t ∧ t.psw = s.psw ∧
        t.draws = s.draws) ∧
      exec .movPswAh s =
        .next { s with
          psw := { s.psw with
            s := s.aw.getLsbD 15, z := s.aw.getLsbD 14, ac := s.aw.getLsbD 12, p := s.aw.getLsbD 10
            cy := s.aw.getLsbD 8 } } ∧
      (∃ t, exec .movAhPsw s = .next t ∧ t.al = s.al ∧ t.ah.getLsbD 7 = s.psw.s ∧ t.ah.getLsbD 6 = s.psw.z ∧
        t.ah.getLsbD 4 = s.psw.ac ∧ t.ah.getLsbD 2 = s.psw.p ∧ t.ah.getLsbD 0 = s.psw.cy ∧
        t = { s with aw := t.aw, draws := t.draws })

/-! ## Blocks, bit fields, I/O -/

/-- Without a repeat prefix MOVBK, CMPBK, CMPM, LDM and STM complete with one element; CW is not written (R140, R146 to
R150). -/
def Obligations.OneBlockElementCompletes : Prop :=
  ∀ (s : State) (w : Width), s.prefixes.repeated = none →
    (∃ t, exec (.movbk w) s = .next t ∧ Stored w s.ds1 s.iy (s.readMem w s.srcSeg s.ix) s t ∧
      OnlyStored w s.ds1 s.iy s t ∧
      t = { s with ix := stepped s w s.ix, iy := stepped s w s.iy, mem := t.mem, stores := t.stores }) ∧
    (∃ t r, exec (.cmpbk w) s = .next t ∧
      AluResult .cmp (s.readMem w s.srcSeg s.ix) (s.readMem w s.ds1 s.iy) r s.psw t.psw ∧
      t = { s with ix := stepped s w s.ix, iy := stepped s w s.iy, psw := t.psw }) ∧
    (∃ t r, exec (.cmpm w) s = .next t ∧
      AluResult .cmp (s.reg w .aw) (s.readMem w s.ds1 s.iy) r s.psw t.psw ∧
      t = { s with iy := stepped s w s.iy, psw := t.psw }) ∧
    (∃ t, exec (.ldm w) s = .next t ∧ t.reg w .aw = s.readMem w s.srcSeg s.ix ∧ (w = .byte → t.ah = s.ah) ∧
      t = { s with ix := stepped s w s.ix, aw := t.aw }) ∧
    (∃ t, exec (.stm w) s = .next t ∧ Stored w s.ds1 s.iy (s.reg w .aw) s t ∧ OnlyStored w s.ds1 s.iy s t ∧
      t = { s with iy := stepped s w s.iy, mem := t.mem, stores := t.stores })

/-- IN loads AL or AW from the port an immediate or DW names, OUT writes AL or AW to it, whatever prefixes stand before.
Without a repeat prefix INM stores one element read from the port in DW, OUTM writes one element to it. What is read is the
environment's next answer where it has one ready, else its answer at that port (R50, R165 to R171).
Of the model: log entry 51. -/
def Obligations.PortTransfersComplete : Prop :=
  ∀ (s : State) (w : Width) (p : Byte),
    (∃ t, exec (.inAccImm w p) s = .next t ∧ ReadsPort w (p.setWidth 16) (t.reg w .aw) s t ∧
      (w = .byte → t.ah = s.ah) ∧ t = { s with aw := t.aw, ioIn := t.ioIn, draws := t.draws }) ∧
    (∃ t, exec (.inAccDw w) s = .next t ∧ ReadsPort w s.dw (t.reg w .aw) s t ∧
      (w = .byte → t.ah = s.ah) ∧ t = { s with aw := t.aw, ioIn := t.ioIn, draws := t.draws }) ∧
    exec (.outImmAcc w p) s =
      .next { s with
        ioOut := { port := p.setWidth 16, width := w, value := (s.reg w .aw).setWidth 16 } :: s.ioOut } ∧
    exec (.outDwAcc w) s =
      .next { s with ioOut := { port := s.dw, width := w, value := (s.reg w .aw).setWidth 16 } :: s.ioOut } ∧
    (s.prefixes.repeated = none →
      (∃ t v, exec (.inm w) s = .next t ∧ ReadsPort w s.dw v s t ∧ Stored w s.ds1 s.iy v s t ∧
        OnlyStored w s.ds1 s.iy s t ∧
        t = { s with
          iy := stepped s w s.iy, ioIn := t.ioIn, draws := t.draws, mem := t.mem, stores := t.stores }) ∧
      exec (.outm w) s =
        .next { s with
          ix := stepped s w s.ix
          ioOut :=
            { port := s.dw, width := w, value := (s.readMem w s.srcSeg s.ix).setWidth 16 } :: s.ioOut })

/-- A repeat prefix runs one element at a time: with CW = 0 nothing; else the element as without the prefix, CW one
less, and the instruction stays in progress exactly if CW is not 0 and, for a compare, the prefix's test holds; REPC and
REPNC before a primitive that compares nothing are refused (R141 to R145; REPNE before such a primitive acts as REP by
the spec's decision D22). Of the model: log entries 17 and 25. -/
def Obligations.RepeatRunsElementsWhileCountLasts : Prop :=
  ∀ (s : State) (i : Instr) (compares : Bool) (r : Rep), BlockForm i compares → s.prefixes.repeated = some r →
    s.inProgress = none →
    ((r = .repc ∨ r = .repnc) ∧ compares = false → exec i s = .refused .repeatCondition) ∧
    (¬ ((r = .repc ∨ r = .repnc) ∧ compares = false) →
      (s.cw = 0 → exec i s = .next s) ∧
      (s.cw ≠ 0 →
        ∃ u t, exec i { s with prefixes := { s.prefixes with repeated := none } } = .next u ∧
          exec i s = .next t ∧
          t = { u with prefixes := s.prefixes, cw := s.cw - 1, inProgress := t.inProgress } ∧
          (t.inProgress = some i ↔ s.cw - 1 ≠ 0 ∧ (compares = true → RepeatTest r u.psw)) ∧
          (t.inProgress = some i ∨ t.inProgress = none)))

/-- EXT completes when bit offset and length operand are at most 15: AW holds the field zero-extended (unless the offset
register is a half of AW, whose half then holds the new offset), the offset and IX move to the next field; above 15 it
is refused (R160 to R162). Of the model: log entry 26. -/
def Obligations.ExtractLoadsTheField : Prop :=
  ∀ (s : State) (i : Instr) (o : Reg) (l : Nat), ExtForm s i o l →
    let b := (s.reg8 o).toNat
    (b ≤ 15 → l ≤ 15 →
      ∃ t, exec i s = .next t ∧ NextField o b l t s.ix t.ix ∧ SameControlFlags s.psw t.psw ∧
        (∀ k, k < 16 → ¬ (o = .aw ∧ k < 8) → ¬ (o = .sp ∧ 8 ≤ k) →
          t.aw.getLsbD k = (decide (k ≤ l) && stringBit s s.srcSeg s.ix (b + k))) ∧
        (∀ q, q ≠ o → q ≠ .aw → q ≠ .sp → t.reg8 q = s.reg8 q) ∧
        t = { s with aw := t.aw, bw := t.bw, cw := t.cw, dw := t.dw, ix := t.ix, psw := t.psw, draws := t.draws }) ∧
    (15 < b ∨ 15 < l → exec i s = .refused .bitFieldRange)

/-- INS completes when bit offset and length operand are at most 15: the field's bits are AW's low-order bits, every
other bit of the four bytes keeps its value, bytes that hold no field bit are not written, the offset and IY move to the
next field; above 15 it is refused (R160, R163, R164). Of the model: log entry 26. -/
def Obligations.InsertStoresTheField : Prop :=
  ∀ (s : State) (i : Instr) (o : Reg) (l : Nat), InsForm s i o l → s.NormalAddresses →
    let b := (s.reg8 o).toNat
    (b ≤ 15 → l ≤ 15 →
      ∃ t, exec i s = .next t ∧ NextField o b l t s.iy t.iy ∧ SameControlFlags s.psw t.psw ∧
        (∀ k, k < 32 → stringBit t s.ds1 s.iy k =
          if b ≤ k ∧ k ≤ b + l then s.aw.getLsbD (k - b) else stringBit s s.ds1 s.iy k) ∧
        (∀ a, (∀ k, b ≤ k → k ≤ b + l → a ≠ s.addr s.ds1 (s.iy + BitVec.ofNat 16 (k / 8))) →
          t.mem.read a = s.mem.read a) ∧
        (∀ q, q ≠ o → t.reg8 q = s.reg8 q) ∧
        t = { s with
          aw := t.aw, bw := t.bw, cw := t.cw, dw := t.dw, iy := t.iy, psw := t.psw, draws := t.draws
          mem := t.mem, stores := t.stores }) ∧
    (15 < b ∨ 15 < l → exec i s = .refused .bitFieldRange)

/-! ## Stack and control transfer -/

/-- PUSH of one word completes: SP is 2 less and the word stands at SS:SP; PUSH SP pushes the new SP; no flag changes
(R290, R292 to R296). -/
def Obligations.PushStoresOneWord : Prop :=
  ∀ (s : State) (i : Instr) (v : Word), PushForm s i v →
    ∃ t, exec i s = .next t ∧ Pushed [v] s t ∧ t = { s with sp := s.sp - 2, mem := t.mem, stores := t.stores }

/-- PUSH R completes and pushes AW, CW, DW, BW, the SP before the instruction, BP, IX, IY; POP R completes, reads them
back in reverse but for the SP slot, and frees 16 bytes (R297, R342). -/
def Obligations.RegisterSetPushAndPop : Prop :=
  ∀ s : State,
    (∃ t, exec .pushR s = .next t ∧ Pushed [s.aw, s.cw, s.dw, s.bw, s.sp, s.bp, s.ix, s.iy] s t ∧
      t = { s with sp := s.sp - 16, mem := t.mem, stores := t.stores }) ∧
    exec .popR s =
      .next { s with
        iy := s.readWord s.ss s.sp, ix := s.readWord s.ss (s.sp + 2), bp := s.readWord s.ss (s.sp + 4)
        bw := s.readWord s.ss (s.sp + 8), dw := s.readWord s.ss (s.sp + 10), cw := s.readWord s.ss (s.sp + 12)
        aw := s.readWord s.ss (s.sp + 14), sp := s.sp + 16 }

/-- POP reg16 loads the word at SS:SP, and SP is 2 more unless SP is the register loaded; POP mem16 stores it; POP PSW
loads nine flags, and MD only where it is write-enabled (R291, R298, R299, R341, R17, R19). -/
def Obligations.PopLoadsTheStackTop : Prop :=
  ∀ (s : State) (r : Reg) (m : MemArg),
    let v := s.readWord s.ss s.sp
    (∃ t, exec (.popReg r) s = .next t ∧ t.reg16 r = v ∧ (r ≠ .sp → t.sp = s.sp + 2) ∧
      (∀ q, q ≠ r → q ≠ .sp → t.reg16 q = s.reg16 q) ∧ RegisterFrame s t ∧ t.psw = s.psw ∧ t.draws = s.draws) ∧
    (∃ t, exec (.popMem m) s = .next t ∧ Stored .word (s.eaSeg m) (s.ea m) v s t ∧
      OnlyStored .word (s.eaSeg m) (s.ea m) s t ∧
      t = { s with sp := s.sp + 2, mem := t.mem, stores := t.stores }) ∧
    (∃ t, exec .popPsw s = .next t ∧ t = { s with sp := s.sp + 2, psw := t.psw } ∧ t.psw.v = v.getLsbD 11 ∧
      t.psw.dir = v.getLsbD 10 ∧ t.psw.ie = v.getLsbD 9 ∧ t.psw.brk = v.getLsbD 8 ∧ t.psw.s = v.getLsbD 7 ∧
      t.psw.z = v.getLsbD 6 ∧ t.psw.ac = v.getLsbD 4 ∧ t.psw.p = v.getLsbD 2 ∧ t.psw.cy = v.getLsbD 0 ∧
      t.psw.md = if s.cls = .emu ∧ s.mdwe = true then v.getLsbD 15 else s.psw.md)

/-- PREPARE completes for every level: BP is the frame it pushed, SP is below the level's frame pointers and the local
variables, the old BP is the first word pushed and, from level 1 on, the new frame's own address the last; between them
stand the level − 1 words that BP − 2, BP − 4, … held before, each where it shares no byte with the words pushed. DISPOSE
completes and undoes it by BP (R343, R344). Of the model: log entries 34 and 35. -/
def Obligations.StackFramesAreMadeAndFreed : Prop :=
  ∀ (s : State) (size : Word) (level : Byte),
    (∃ t, exec (.prepare size level) s = .next t ∧ t.bp = s.sp - 2 ∧
      t.sp = s.sp - 2 - BitVec.ofNat 16 (2 * level.toNat) - size ∧
      t = { s with bp := t.bp, sp := t.sp, mem := t.mem, stores := t.stores } ∧
      (∀ a, ¬ InStack s (level.toNat + 1) a → t.mem.read a = s.mem.read a) ∧
      (s.NormalAddresses → t.readWord s.ss (s.sp - 2) = s.bp) ∧
      (s.NormalAddresses → level ≠ 0 →
        t.readWord s.ss (s.sp - 2 - BitVec.ofNat 16 (2 * level.toNat)) = s.sp - 2) ∧
      (s.NormalAddresses → ∀ j, 1 ≤ j → j < level.toNat →
        (∀ a, InOperand s .word s.ss (s.bp - BitVec.ofNat 16 (2 * j)) a → ¬ InStack s (level.toNat + 1) a) →
        t.readWord s.ss (s.sp - 2 - BitVec.ofNat 16 (2 * j)) = s.readWord s.ss (s.bp - BitVec.ofNat 16 (2 * j)))) ∧
    exec .dispose s = .next { s with sp := s.bp + 2, bp := s.readWord s.ss s.bp }

/-- CALL completes in its five forms: PS (between segments) and the next instruction's offset are pushed, control goes
to the target, the queue is emptied, no flag changes (R300 to R305, R60). Of the model: log entries 13 and 33. -/
def Obligations.CallPushesTheReturnAddress : Prop :=
  ∀ (s : State) (i : Instr) (words : List Word) (ps pc : Word), CallForm s i words ps pc →
    ∃ t, exec i s = .next t ∧ Pushed words s t ∧
      t = { s with
        sp := s.sp - BitVec.ofNat 16 (2 * words.length), ps := ps, pc := pc, mem := t.mem, stores := [] }

/-- RET and BR complete in all their forms with control at the address they name and the queue emptied, and write
nothing else but SP and PS (R306 to R315). Of the model: log entry 13. -/
def Obligations.ReturnsAndBranchesGoToTheirTarget : Prop :=
  ∀ (s : State) (i : Instr) (ps pc n : Word),
    (ReturnForm s i ps pc n → exec i s = .next { s with ps := ps, pc := pc, sp := s.sp + n, stores := [] }) ∧
      (BranchForm s i ps pc → exec i s = .next { s with ps := ps, pc := pc, stores := [] })

/-- The conditional branches complete: taken exactly when the condition of their rule holds, to `nextPC` plus the
sign-extended displacement; the loop branches count CW down first and no flag changes (R316 to R336).
Of the model: log entry 13. -/
def Obligations.ConditionalBranchesFollowTheirCondition : Prop :=
  ∀ (s : State) (i : Instr) (d : Byte) (c : Prop),
    (CondForm s i d c →
      (c → exec i s = .next { s with pc := s.pc + d.signExtend 16, stores := [] }) ∧ (¬ c → exec i s = .next s)) ∧
    (LoopForm s i d c →
      let u := { s with cw := s.cw - 1 }
      (s.cw ≠ 1 ∧ c → exec i s = .next { u with pc := s.pc + d.signExtend 16, stores := [] }) ∧
        (¬ (s.cw ≠ 1 ∧ c) → exec i s = .next u))

/-! ## Interrupts, modes, CPU control -/

/-- BRK 3, BRK imm8, BRKV with V = 1 and CHKIND out of its limits enter their vector with the next instruction saved;
BRKV with V = 0 and CHKIND within its limits change nothing (R350 to R354, R403; the limits compare as signed words by
the spec's decision D36). Of the model: log entries 36 and 37. -/
def Obligations.SoftwareInterruptsEnterTheirVector : Prop :=
  ∀ (s : State) (n : Byte) (r : Reg) (m : MemArg),
    let inLimits := (s.readEA .word m).toInt ≤ (s.reg16 r).toInt ∧ (s.reg16 r).toInt ≤ (s.readEAHigh m).toInt
    (∃ t, exec .brk3 s = .next t ∧ Enters 3 s.pc s t) ∧
    (∃ t, exec (.brkImm n) s = .next t ∧ Enters n s.pc s t) ∧
    (s.psw.v = true → ∃ t, exec .brkv s = .next t ∧ Enters 4 s.pc s t) ∧
    (s.psw.v = false → exec .brkv s = .next s) ∧
    (¬ inLimits → ∃ t, exec (.chkind r m) s = .next t ∧ Enters 5 s.pc s t) ∧
    (inLimits → exec (.chkind r m) s = .next s)

/-- The vector table: entry `n` is the four bytes from 4n, the offset word first, read from absolute addresses (R402,
in the normal address mode). -/
def Obligations.VectorTableIsAtAddressZero : Prop :=
  ∀ (s : State) (n : Byte), s.NormalAddresses →
    let a := 4 * n.toNat
    s.vectorOffset n = s.mem.read (a + 1) ++ s.mem.read a ∧
      s.vectorSegment n = s.mem.read (a + 3) ++ s.mem.read (a + 2)

/-- RETI completes: PC, PS and PSW come from the three words at SS:SP, MD only where it is write-enabled (R355, R19). -/
def Obligations.ReturnFromInterruptPopsThreeWords : Prop :=
  ∀ s : State,
    let w := s.readWord s.ss (s.sp + 4)
    ∃ t, exec .reti s = .next t ∧
      t = { s with
        pc := s.readWord s.ss s.sp, ps := s.readWord s.ss (s.sp + 2), sp := s.sp + 6, psw := t.psw, stores := [] } ∧
      t.psw.v = w.getLsbD 11 ∧ t.psw.dir = w.getLsbD 10 ∧ t.psw.ie = w.getLsbD 9 ∧ t.psw.brk = w.getLsbD 8 ∧
      t.psw.s = w.getLsbD 7 ∧ t.psw.z = w.getLsbD 6 ∧ t.psw.ac = w.getLsbD 4 ∧ t.psw.p = w.getLsbD 2 ∧
      t.psw.cy = w.getLsbD 0 ∧ t.psw.md = if s.cls = .emu ∧ s.mdwe = true then w.getLsbD 15 else s.psw.md

/-- RETI undoes the entry of BRK imm8, whatever the vector: after the two the machine is as before but for memory and
the emptied queue (R355, R403, R415; the PC saved is `nextPC` by the spec's decision D35).
Of the model: log entries 13 and 36. -/
def Obligations.ReturnUndoesBreak : Prop :=
  ∀ (s : State) (n : Byte), s.NormalAddresses →
    ∃ t, exec (.brkImm n) s = .next t ∧ exec .reti t = .next { s with mem := t.mem, stores := [] }

/-- BRKEM, CALLN and RETEM complete on `cls = EMU`: the entry of a vector with MD written instead of IE and BRK, and the
return that restores all ten flags, ignores the popped word's fixed bits (the spec's decision D9) and closes MDWE; on
`cls = XA` their codes are undefined (R2, R382 to R384). Of the model: log entries 14, 18, 36 and 53. -/
def Obligations.EmulationModeInstructionsComplete : Prop :=
  ∀ (s : State) (n : Byte),
    (s.cls = .emu →
      (∃ t, exec (.brkem n) s = .next t ∧ Pushed [s.pswWord, s.ps, s.pc] s t ∧
        t = { s with
          ps := s.vectorSegment n, pc := s.vectorOffset n, sp := s.sp - 6, psw := { s.psw with md := false }
          mdwe := true, stores := [], mem := t.mem }) ∧
      (∃ t, exec (.calln n) s = .next t ∧ Pushed [s.pswWord, s.ps, s.pc] s t ∧
        t = { s with
          ps := s.vectorSegment n, pc := s.vectorOffset n, sp := s.sp - 6, psw := { s.psw with md := true }
          stores := [], mem := t.mem }) ∧
      (∃ t, exec .retem s = .next t ∧ t.pswWord = s.readWord s.ss (s.sp + 4) &&& 0x8FD5 ||| 0x7002 ∧
        t = { s with
          pc := s.readWord s.ss s.sp, ps := s.readWord s.ss (s.sp + 2), sp := s.sp + 6, psw := t.psw
          mdwe := false, stores := [] })) ∧
    (s.cls = .xa →
      exec (.brkem n) s = .refused .undefinedCode ∧ exec (.calln n) s = .refused .undefinedCode ∧
        exec .retem s = .refused .undefinedCode)

/-- BRKXA and RETXA complete on `cls = XA`: control goes through the vector read in the mode before, XA is set or reset,
nothing is pushed and no flag changes; on `cls = EMU` their codes are undefined (R2, R387, R388). That bits 7 to 1 of XAM
keep their value is the model's choice (the spec leaves them any value, U16). Of the model: log entries 6, 20 and 53. -/
def Obligations.AddressModeInstructionsComplete : Prop :=
  ∀ (s : State) (n : Byte),
    (s.cls = .xa →
      (∃ t, exec (.brkxa n) s = .next t ∧ t.xaOn = true ∧
        (∀ k, k ≠ 0 → t.xam.getLsbD k = s.xam.getLsbD k) ∧
        t = { s with ps := s.vectorSegment n, pc := s.vectorOffset n, xam := t.xam, stores := [] }) ∧
      (∃ t, exec (.retxa n) s = .next t ∧ t.xaOn = false ∧
        (∀ k, k ≠ 0 → t.xam.getLsbD k = s.xam.getLsbD k) ∧
        t = { s with ps := s.vectorSegment n, pc := s.vectorOffset n, xam := t.xam, stores := [] })) ∧
    (s.cls = .emu →
      exec (.brkxa n) s = .refused .undefinedCode ∧ exec (.retxa n) s = .refused .undefinedCode)

/-- NOP and the four FPO forms change nothing; EI sets IE and opens the window; HALT halts; POLL ends when its pin is
active, waits in progress when it is not, and is refused under BUSLOCK (R361, R362, R364, R367, R369, R446), by the
model's choice also where other prefixes stand between BUSLOCK and POLL. Of the model: log entries 38, 40 and 45. -/
def Obligations.CpuControlCompletes : Prop :=
  ∀ (s : State) (x y z : BitVec 3) (x' : BitVec 1) (m : MemArg),
    exec .nop s = .next s ∧ exec (.fpo1Reg x y z) s = .next s ∧ exec (.fpo1Mem x y m) s = .next s ∧
      exec (.fpo2Reg x' y z) s = .next s ∧ exec (.fpo2Mem x' y m) s = .next s ∧
      exec .ei s = .next { s with psw := { s.psw with ie := true }, inhibit := true } ∧
      exec .halt s = .next { s with halted := true } ∧
      (s.prefixes.locked = false → s.pollActive = true → exec .poll s = .next s) ∧
      (s.prefixes.locked = false → s.pollActive = false →
        exec .poll s = .next { s with inProgress := some .poll }) ∧
      (s.prefixes.locked = true → exec .poll s = .refused .lockedPoll)

/-- Each prefix completes: it puts itself in force for the next instruction, replaces only an earlier prefix of its own
kind, opens the window, and no interrupt or break is taken after it (R86, R87, R141 to R144, R366, R368).
Of the model: log entry 21. -/
def Obligations.PrefixesPutThemselvesInForce : Prop :=
  ∀ (s : State) (i : Instr) (f : Prefixes → Prefixes),
    (i = .segDs1 ∧ (f = fun p => { p with override := some .ds1 }) ∨
      i = .segPs ∧ (f = fun p => { p with override := some .ps }) ∨
      i = .segSs ∧ (f = fun p => { p with override := some .ss }) ∨
      i = .segDs0 ∧ (f = fun p => { p with override := some .ds0 }) ∨
      i = .rep ∧ (f = fun p => { p with repeated := some .rep }) ∨
      i = .repne ∧ (f = fun p => { p with repeated := some .repne }) ∨
      i = .repc ∧ (f = fun p => { p with repeated := some .repc }) ∨
      i = .repnc ∧ (f = fun p => { p with repeated := some .repnc }) ∨
      i = .buslock ∧ (f = fun p => { p with locked := true })) →
    exec i s = .next { s with prefixes := f s.prefixes, inhibit := true } ∧
      ∀ (t : State) (armed : Bool), t.finish i armed = t

/-- A code that the spec calls undefined stops, whatever the state: 63H, D6H, F1H, Shift 110, Group1 001, Group2 111,
FEH from 010 on, the blanks of Table C-4, D4H and D5H with another second byte (R95). Of the model: log entry 22. -/
def Obligations.UndefinedCodesStop : Prop :=
  ∀ (s : State) (w : Width) (md : BitVec 2) (sub mem : BitVec 3) (b : Byte),
    exec .undef63 s = .refused .undefinedCode ∧ exec .undefD6 s = .refused .undefinedCode ∧
      exec .undefF1 s = .refused .undefinedCode ∧ exec (.undefC0 w md mem) s = .refused .undefinedCode ∧
      exec (.undefD0 w md mem) s = .refused .undefinedCode ∧ exec (.undefD2 w md mem) s = .refused .undefinedCode ∧
      exec (.undefF6 w md mem) s = .refused .undefinedCode ∧ exec (.undefFF md mem) s = .refused .undefinedCode ∧
      exec (.undefFE md sub mem) s = .refused .undefinedCode ∧ exec (.undef0F b) s = .refused .undefinedCode ∧
      exec (.undefCvt w b) s = .refused .undefinedCode

/-- The boundary after a completed instruction (R410 to R412): with the window open nothing is taken; else, in native
mode, the single-step break when BRK was set as the instruction began, then an NMI request, else an enabled maskable
request, each with the offset of the instruction that would execute next saved; a maskable request that IE = 0 disables
is not serviced and stays pending, but ends the HALT state, so after HALT it does so at once (R362; that a disabled
request ends HALT is the spec's decision D38). In the emulation mode, where no source says how they are taken (R381,
R389), the step that follows is refused for a break or a request that is due.
Of the model: log entries 19, 39, 41, 42, 43 and 44. -/
def Obligations.BoundaryServesInOrder : Prop :=
  ∀ (s : State) (i : Instr) (armed : Bool), isPrefix i = false → s.inProgress = none →
    let u := { s with prefixes := Prefixes.none }
    (s.inhibit = true → s.finish i armed = u) ∧
    (s.emulating = true → s.inhibit = false → s.halted = false →
      (armed = true ∨ s.nmi = true ∨ s.int ≠ none ∧ s.psw.ie = true) →
      step (s.finish i armed) = .refused .emulationInterrupt) ∧
    (s.emulating = false → s.inhibit = false →
      ∃ v, (if armed then Enters 1 s.pc u v else v = u) ∧
        (s.nmi = true →
          Enters s.nmiVector v.pc { v with nmi := false, halted := false } (s.finish i armed)) ∧
        (s.nmi = false → ∀ n, s.int = some n → v.psw.ie = true →
          Enters n v.pc { v with int := none, halted := false } (s.finish i armed)) ∧
        (s.nmi = false → ∀ n, s.int = some n → v.psw.ie = false → s.finish i armed = { v with halted := false }) ∧
        (s.nmi = false → s.int = none → s.finish i armed = v))

/-- A halted CPU executes nothing until a request: NMI, or a maskable request, ends the HALT state, and is serviced
unless IE = 0 holds the maskable one off (R362; that a disabled request still ends HALT is the spec's decision D38). NMI
enters `nmi_vector`, 2 unless the environment says another (R401, the spec's decision D41), by the entry that BRK uses
(D43). Of the model: log entries 39, 41, 42 and 43. -/
def Obligations.HaltEndsOnRequests : Prop :=
  ∀ s : State, s.halted = true →
    (s.nmi = false → s.int = none → step s = .next s) ∧
    (s.nmi = true → ∃ t, step s = .next t ∧ Enters s.nmiVector s.pc { s with nmi := false, halted := false } t) ∧
    (s.nmi = false → ∀ n, s.int = some n →
      (s.psw.ie = true → ∃ t, step s = .next t ∧ Enters n s.pc { s with int := none, halted := false } t) ∧
        (s.psw.ie = false → step s = .next { s with halted := false }))

/-- An instruction in progress is taken up without a fetch: a repeated block instruction at its next element, POLL at its
next look at the pin. A hardware interrupt between two of them saves the offset of the instruction's first prefix byte and
drops it, so that the return runs it again with what remains (R145, R364, R404 (c), the spec's decision D13): NMI at
`nmi_vector` (D41), a maskable request at the vector it carries (D42), by the entry that BRK uses (D43). No single-step
break is taken there (D44), and nothing at all while the window was open as the instruction began.
Of the model: log entries 17, 38, 41, 42, 43 and 44. -/
def Obligations.InstructionInProgressGoesOnOrIsInterrupted : Prop :=
  ∀ (s : State) (i j : Instr) (armed : Bool), s.inProgress = some j →
    (s.halted = false →
      step s =
        match exec j { s with inProgress := none } with
        | .next t => .next (t.finish j s.psw.brk)
        | .fault r => .fault r
        | .refused r => .refused r) ∧
    (isPrefix i = false → s.window = true → s.finish i armed = s) ∧
    (isPrefix i = false → s.window = false → s.emulating = false →
      (s.nmi = true →
        Enters s.nmiVector s.start
          { s with nmi := false, halted := false, inProgress := none, prefixes := Prefixes.none }
          (s.finish i armed)) ∧
      (s.nmi = false → ∀ n, s.int = some n → s.psw.ie = true →
        Enters n s.start { s with int := none, halted := false, inProgress := none, prefixes := Prefixes.none }
          (s.finish i armed)) ∧
      (s.nmi = false → (s.int = none ∨ s.psw.ie = false) → s.finish i armed = s))

/-! ## Rules of the whole machine -/

/-- Every step keeps the invariant: the memory stays canonical, the class stays with its own state, only a resumable
instruction stays in progress. Of the model: log entries 5, 14 and 17. -/
def Obligations.EveryStepKeepsTheInvariant : Prop := ∀ s t : State, s.Inv → step s = .next t → t.Inv

/-- MD changes only by BRKEM, CALLN, RETEM, and by RETI and POP PSW while it is write-enabled on `cls = EMU` (R19,
R380). -/
def Obligations.OnlyModeInstructionsChangeMode : Prop :=
  ∀ (i : Instr) (s t : State), exec i s = .next t → t.psw.md ≠ s.psw.md →
    s.cls = .emu ∧
      ((∃ n, i = .brkem n ∧ t.psw.md = false) ∨ (∃ n, i = .calln n ∧ t.psw.md = true) ∨ i = .retem ∨
        (i = .reti ∨ i = .popPsw) ∧ s.mdwe = true)

/-- No instruction sets BRK but POP PSW, RETI and RETEM, which load PSW as a word (R27). -/
def Obligations.OnlyPswLoadsSetBreak : Prop :=
  ∀ (i : Instr) (s t : State), exec i s = .next t → s.psw.brk = false → t.psw.brk = true →
    i = .popPsw ∨ i = .reti ∨ i = .retem

/-- PS changes only by far CALL, far BR, far RET, RETI, RETEM, BRKXA, RETXA and the entry of a vector (R13). That no MOV
sreg is among them rests on the refusal of MOV PS, src (R116, the spec's decision D19). Of the model: log entry 22. -/
def Obligations.OnlyFarTransfersChangeProgramSegment : Prop :=
  ∀ (i : Instr) (s t : State), exec i s = .next t → t.ps ≠ s.ps →
    (∃ a b, i = .callFar a b) ∨ (∃ m, i = .callMemptr32 m) ∨ (∃ a b, i = .brFar a b) ∨ (∃ m, i = .brMemptr32 m) ∨
      i = .retFar ∨ (∃ v, i = .retFarPop v) ∨ i = .reti ∨ i = .retem ∨ (∃ n, i = .brkxa n) ∨ (∃ n, i = .retxa n) ∨
      i = .brk3 ∨ (∃ n, i = .brkImm n) ∨ i = .brkv ∨ (∃ r m, i = .chkind r m) ∨ (∃ w o, i = .divuRm w o) ∨
      (∃ w o, i = .divRm w o) ∨ (∃ n, i = .brkem n) ∨ ∃ n, i = .calln n

/-- XAM changes only by BRKXA and RETXA, and no instruction changes the class, a pending request, the POLL pin or what
the window of the instruction was (R32, R385; 60_exceptions.md R411). Of the model: log entries 6 and 42. -/
def Obligations.OnlyAddressModeInstructionsChangeXam : Prop :=
  ∀ (i : Instr) (s t : State), exec i s = .next t →
    (t.xam ≠ s.xam → (∃ n, i = .brkxa n) ∨ ∃ n, i = .retxa n) ∧ t.cls = s.cls ∧ t.nmi = s.nmi ∧ t.int = s.int ∧
      t.pollActive = s.pollActive ∧ t.start = s.start ∧ t.window = s.window
end

