-- ==== Sys2Proof/Laws/Decode.lean ====
section
/-! SUPPORT. What the decoder's parts read from what the encoder's parts write. -/

namespace Sys2Proof

@[simp] theorem modField_modMidMem (md : BitVec 2) (mid mem : BitVec 3) :
    modField (modMidMem md mid mem) = md := by
  apply BitVec.eq_of_getLsbD_eq
  intro k hk
  match k, hk with
  | 0, _ | 1, _ => simp [modField, modMidMem]

@[simp] theorem midField_modMidMem (md : BitVec 2) (mid mem : BitVec 3) :
    midField (modMidMem md mid mem) = mid := by
  apply BitVec.eq_of_getLsbD_eq
  intro k hk
  match k, hk with
  | 0, _ | 1, _ | 2, _ => simp [midField, modMidMem]

@[simp] theorem memField_modMidMem (md : BitVec 2) (mid mem : BitVec 3) :
    memField (modMidMem md mid mem) = mem := by
  apply BitVec.eq_of_getLsbD_eq
  intro k hk
  match k, hk with
  | 0, _ | 1, _ | 2, _ => simp [memField, modMidMem]

@[simp] theorem joinBytes_halves (v : Word) : joinBytes (lowByte v) (highByte v) = v := by
  apply BitVec.eq_of_getLsbD_eq
  intro k hk
  by_cases h : k < 8
  · simp [joinBytes, lowByte, highByte, h, hk]
  · have e : 8 + (k - 8) = k := by omega
    have l : k - 8 < 8 := by omega
    simp [joinBytes, lowByte, highByte, h, hk, e, l]

@[simp] theorem lowByte_joinBytes (lo hi : Byte) : lowByte (joinBytes lo hi) = lo := by
  apply BitVec.eq_of_getLsbD_eq
  intro k hk
  simp [joinBytes, lowByte, hk, show k < 16 by omega]

@[simp] theorem highByte_joinBytes (lo hi : Byte) : highByte (joinBytes lo hi) = hi := by
  apply BitVec.eq_of_getLsbD_eq
  intro k hk
  simp [joinBytes, highByte, hk, show 8 + k < 16 by omega]

@[simp] theorem Reg.ofCode_code (r : Reg) : Reg.ofCode r.code = r := by cases r <;> rfl

@[simp] theorem SReg.ofCode_code (r : SReg) : SReg.ofCode r.code = r := by cases r <;> rfl

@[simp] theorem Base.ofCode_code (b : Base) : Base.ofCode b.code = b := by cases b <;> rfl

@[simp] theorem takeByte_cons (b : Byte) (rest : List Byte) : takeByte (b :: rest) = .ok (b, rest) := rfl

@[simp] theorem takeWord_wordBytes (v : Word) (rest : List Byte) :
    takeWord (wordBytes v ++ rest) = .ok (v, rest) := by
  simp [wordBytes, takeWord]

@[simp] theorem takeImm_bytes (v : Imm) (rest : List Byte) :
    takeImm v.width (v.bytes ++ rest) = .ok (v, rest) := by
  cases v <;> simp [takeImm, Imm.width, Imm.bytes, bind, Except.bind, pure, Except.pure]

@[simp] theorem takeImmS_bytes (v : ImmS) (rest : List Byte) :
    takeImmS v.op (v.bytes ++ rest) = .ok (v, rest) := by
  cases v <;> simp [takeImmS, ImmS.op, ImmS.bytes, bind, Except.bind, pure, Except.pure]

/-- A well-formed memory operand is read back from its bytes, with its middle field. -/
theorem takeRM_encodeMem (mid : BitVec 3) (m : MemArg) (h : m.wf = true) (rest : List Byte) :
    takeRM (encodeMem mid m ++ rest) = .ok (mid, .mem m, rest) := by
  cases m with
  | direct a =>
    simp [encodeMem, takeRM, takeDisp, bind, Except.bind, pure, Except.pure, show Base.ofCode 6#3 = .bp from rfl]
  | based b =>
    cases b <;>
      simp_all [encodeMem, takeRM, takeDisp, MemArg.wf, bind, Except.bind, pure, Except.pure]
  | disp8 b d => simp [encodeMem, takeRM, takeDisp, bind, Except.bind, pure, Except.pure]
  | disp16 b d => simp [encodeMem, takeRM, takeDisp, bind, Except.bind, pure, Except.pure]

/-- A well-formed operand is read back from its bytes, with its middle field. -/
theorem takeRM_encodeRM (mid : BitVec 3) (rm : RM) (h : rm.wf = true) (rest : List Byte) :
    takeRM (encodeRM mid rm ++ rest) = .ok (mid, rm, rest) := by
  cases rm with
  | reg r => simp [encodeRM, takeRM, takeDisp, bind, Except.bind, pure, Except.pure]
  | mem m => exact takeRM_encodeMem mid m h rest

/-- A well-formed memory operand is read back where only memory is allowed. -/
theorem takeMem_encodeMem (mid : BitVec 3) (m : MemArg) (h : m.wf = true) (rest : List Byte) :
    takeMem (encodeMem mid m ++ rest) = .ok (mid, m, rest) := by
  simp [takeMem, takeRM_encodeMem mid m h, bind, Except.bind, pure, Except.pure]

end Sys2Proof
end

