-- ==== Sys2Proof/Laws/Memory.lean ====
section
/-! SUPPORT. Memory: a read after a write, and the canonical form. -/

namespace Sys2Proof.Machine.Memory

theorem read_insert_same (m : Memory) (a : Nat) (b : Byte) : (insert a b m).read a = b := by
  induction m with
  | nil => simp [insert, read]
  | cons c m ih =>
    obtain ⟨k, v⟩ := c
    unfold insert
    split
    · simp [read, show ¬ k = a by omega, ih]
    · split <;> simp [read]

theorem read_insert_other (m : Memory) (a c : Nat) (b : Byte) (h : c ≠ a) : (insert a b m).read c = m.read c := by
  induction m with
  | nil => simp [insert, read, Ne.symm h]
  | cons e m ih =>
    obtain ⟨k, v⟩ := e
    unfold insert
    split
    · simp [read, ih]
    · split
      · next h' => subst h'; simp [read, Ne.symm h]
      · simp [read, Ne.symm h]

theorem read_erase_same (m : Memory) (a : Nat) : (erase a m).read a = unlisted := by
  induction m with
  | nil => rfl
  | cons c m ih =>
    obtain ⟨k, v⟩ := c
    unfold erase
    split
    · exact ih
    · simp [read, *]

theorem read_erase_other (m : Memory) (a c : Nat) (h : c ≠ a) : (erase a m).read c = m.read c := by
  induction m with
  | nil => rfl
  | cons e m ih =>
    obtain ⟨k, v⟩ := e
    unfold erase
    split
    · next h' => subst h'; simp [read, Ne.symm h, ih]
    · simp [read, ih]

/-- A read after a write to the same address gives the byte written. -/
@[simp] theorem read_write_same (m : Memory) (a : Nat) (b : Byte) : (m.write a b).read a = b := by
  unfold write
  split
  · next h => rw [read_erase_same, h]
  · exact read_insert_same m a b

/-- A write leaves every other address as it was. -/
theorem read_write_other (m : Memory) (a c : Nat) (b : Byte) (h : c ≠ a) : (m.write a b).read c = m.read c := by
  unfold write
  split
  · exact read_erase_other m a c h
  · exact read_insert_other m a c b h

theorem mem_erase {m : Memory} {a : Nat} {c : Host.Cell} (h : c ∈ erase a m) : c ∈ m := by
  induction m with
  | nil => simp [erase] at h
  | cons e m ih =>
    obtain ⟨k, v⟩ := e
    unfold erase at h
    split at h
    · exact List.mem_cons_of_mem _ (ih h)
    · rcases List.mem_cons.mp h with h | h
      · exact h ▸ List.mem_cons_self
      · exact List.mem_cons_of_mem _ (ih h)

theorem mem_insert {m : Memory} {a : Nat} {b : Byte} {c : Host.Cell} (h : c ∈ insert a b m) :
    c = (a, b) ∨ c ∈ m := by
  induction m with
  | nil => simpa [insert] using h
  | cons e m ih =>
    obtain ⟨k, v⟩ := e
    unfold insert at h
    split at h
    · rcases List.mem_cons.mp h with h | h
      · exact .inr (h ▸ List.mem_cons_self)
      · exact (ih h).imp_right (List.mem_cons_of_mem _)
    · split at h
      · exact (List.mem_cons.mp h).imp_right (List.mem_cons_of_mem _)
      · exact (List.mem_cons.mp h)

theorem erase_rising {m : Memory} (a : Nat) (h : m.Pairwise fun c d => c.1 < d.1) :
    (erase a m).Pairwise fun c d => c.1 < d.1 := by
  induction m with
  | nil => exact h
  | cons e m ih =>
    obtain ⟨k, v⟩ := e
    rw [List.pairwise_cons] at h
    unfold erase
    split
    · exact ih h.2
    · exact List.pairwise_cons.mpr ⟨fun c hc => h.1 c (mem_erase hc), ih h.2⟩

theorem insert_rising {m : Memory} (a : Nat) (b : Byte) (h : m.Pairwise fun c d => c.1 < d.1) :
    (insert a b m).Pairwise fun c d => c.1 < d.1 := by
  induction m with
  | nil => simp [insert]
  | cons e m ih =>
    obtain ⟨k, v⟩ := e
    have h' := List.pairwise_cons.mp h
    unfold insert
    split
    · next hk =>
      refine List.pairwise_cons.mpr ⟨fun c hc => ?_, ih h'.2⟩
      rcases mem_insert hc with hc | hc
      · subst hc; exact hk
      · exact h'.1 c hc
    · split
      · next hk => subst hk; exact List.pairwise_cons.mpr ⟨h'.1, h'.2⟩
      · next hk hne =>
        have lt : a < k := by omega
        refine List.pairwise_cons.mpr ⟨fun c hc => ?_, h⟩
        rcases List.mem_cons.mp hc with hc | hc
        · subst hc; exact lt
        · exact Nat.lt_trans lt (h'.1 c hc)

/-- A write keeps the canonical form. -/
theorem write_wf {m : Memory} (h : m.wf) (a : Nat) (b : Byte) : (m.write a b).wf := by
  unfold write
  split
  · exact ⟨erase_rising a h.1, fun c hc => h.2 c (mem_erase hc)⟩
  · next hb =>
    refine ⟨insert_rising a b h.1, fun c hc => ?_⟩
    rcases mem_insert hc with hc | hc
    · subst hc; exact hb
    · exact h.2 c hc

/-- In canonical form an entry is what its address reads as. -/
theorem read_of_mem {m : Memory} (h : m.wf) {c : Host.Cell} (hc : c ∈ m) : m.read c.1 = c.2 := by
  induction m with
  | nil => simp at hc
  | cons e m ih =>
    obtain ⟨k, v⟩ := e
    have h' := List.pairwise_cons.mp h.1
    rcases List.mem_cons.mp hc with hc | hc
    · subst hc; simp [read]
    · have lt : k < c.1 := h'.1 c hc
      simp only [read, show ¬ k = c.1 by omega, if_false]
      exact ih ⟨h'.2, fun d hd => h.2 d (List.mem_cons_of_mem _ hd)⟩ hc

end Sys2Proof.Machine.Memory
end

