-- ==== Sys2Proof/Laws/State.lean ====
section
/-! SUPPORT. What each named update does to each field of the state. -/

namespace Sys2Proof.Machine.State

variable (s : State)

/-! ### `storeByte` -/

@[simp] theorem storeByte_cls (a : Nat) (b : Byte) : (s.storeByte a b).cls = s.cls := rfl
@[simp] theorem storeByte_aw (a : Nat) (b : Byte) : (s.storeByte a b).aw = s.aw := rfl
@[simp] theorem storeByte_cw (a : Nat) (b : Byte) : (s.storeByte a b).cw = s.cw := rfl
@[simp] theorem storeByte_dw (a : Nat) (b : Byte) : (s.storeByte a b).dw = s.dw := rfl
@[simp] theorem storeByte_bw (a : Nat) (b : Byte) : (s.storeByte a b).bw = s.bw := rfl
@[simp] theorem storeByte_sp (a : Nat) (b : Byte) : (s.storeByte a b).sp = s.sp := rfl
@[simp] theorem storeByte_bp (a : Nat) (b : Byte) : (s.storeByte a b).bp = s.bp := rfl
@[simp] theorem storeByte_ix (a : Nat) (b : Byte) : (s.storeByte a b).ix = s.ix := rfl
@[simp] theorem storeByte_iy (a : Nat) (b : Byte) : (s.storeByte a b).iy = s.iy := rfl
@[simp] theorem storeByte_ds1 (a : Nat) (b : Byte) : (s.storeByte a b).ds1 = s.ds1 := rfl
@[simp] theorem storeByte_ps (a : Nat) (b : Byte) : (s.storeByte a b).ps = s.ps := rfl
@[simp] theorem storeByte_ss (a : Nat) (b : Byte) : (s.storeByte a b).ss = s.ss := rfl
@[simp] theorem storeByte_ds0 (a : Nat) (b : Byte) : (s.storeByte a b).ds0 = s.ds0 := rfl
@[simp] theorem storeByte_pc (a : Nat) (b : Byte) : (s.storeByte a b).pc = s.pc := rfl
@[simp] theorem storeByte_psw (a : Nat) (b : Byte) : (s.storeByte a b).psw = s.psw := rfl
@[simp] theorem storeByte_mdwe (a : Nat) (b : Byte) : (s.storeByte a b).mdwe = s.mdwe := rfl
@[simp] theorem storeByte_xam (a : Nat) (b : Byte) : (s.storeByte a b).xam = s.xam := rfl
@[simp] theorem storeByte_inhibit (a : Nat) (b : Byte) : (s.storeByte a b).inhibit = s.inhibit := rfl
@[simp] theorem storeByte_halted (a : Nat) (b : Byte) : (s.storeByte a b).halted = s.halted := rfl
@[simp] theorem storeByte_prefixes (a : Nat) (b : Byte) : (s.storeByte a b).prefixes = s.prefixes := rfl
@[simp] theorem storeByte_start (a : Nat) (b : Byte) : (s.storeByte a b).start = s.start := rfl
@[simp] theorem storeByte_window (a : Nat) (b : Byte) : (s.storeByte a b).window = s.window := rfl
@[simp] theorem storeByte_inProgress (a : Nat) (b : Byte) : (s.storeByte a b).inProgress = s.inProgress := rfl
@[simp] theorem storeByte_breakDue (a : Nat) (b : Byte) : (s.storeByte a b).breakDue = s.breakDue := rfl
@[simp] theorem storeByte_nmi (a : Nat) (b : Byte) : (s.storeByte a b).nmi = s.nmi := rfl
@[simp] theorem storeByte_int (a : Nat) (b : Byte) : (s.storeByte a b).int = s.int := rfl
@[simp] theorem storeByte_nmiVector (a : Nat) (b : Byte) : (s.storeByte a b).nmiVector = s.nmiVector := rfl
@[simp] theorem storeByte_pollActive (a : Nat) (b : Byte) : (s.storeByte a b).pollActive = s.pollActive := rfl
@[simp] theorem storeByte_ioIn (a : Nat) (b : Byte) : (s.storeByte a b).ioIn = s.ioIn := rfl
@[simp] theorem storeByte_ioOut (a : Nat) (b : Byte) : (s.storeByte a b).ioOut = s.ioOut := rfl
@[simp] theorem storeByte_stores (a : Nat) (b : Byte) : (s.storeByte a b).stores = (a, s.pc) :: s.stores := rfl
@[simp] theorem storeByte_draws (a : Nat) (b : Byte) : (s.storeByte a b).draws = s.draws := rfl
@[simp] theorem storeByte_mem (a : Nat) (b : Byte) : (s.storeByte a b).mem = s.mem.write a b := rfl

/-! ### `jump` -/

@[simp] theorem jump_cls (v : Word) : (s.jump v).cls = s.cls := rfl
@[simp] theorem jump_aw (v : Word) : (s.jump v).aw = s.aw := rfl
@[simp] theorem jump_cw (v : Word) : (s.jump v).cw = s.cw := rfl
@[simp] theorem jump_dw (v : Word) : (s.jump v).dw = s.dw := rfl
@[simp] theorem jump_bw (v : Word) : (s.jump v).bw = s.bw := rfl
@[simp] theorem jump_sp (v : Word) : (s.jump v).sp = s.sp := rfl
@[simp] theorem jump_bp (v : Word) : (s.jump v).bp = s.bp := rfl
@[simp] theorem jump_ix (v : Word) : (s.jump v).ix = s.ix := rfl
@[simp] theorem jump_iy (v : Word) : (s.jump v).iy = s.iy := rfl
@[simp] theorem jump_ds1 (v : Word) : (s.jump v).ds1 = s.ds1 := rfl
@[simp] theorem jump_ps (v : Word) : (s.jump v).ps = s.ps := rfl
@[simp] theorem jump_ss (v : Word) : (s.jump v).ss = s.ss := rfl
@[simp] theorem jump_ds0 (v : Word) : (s.jump v).ds0 = s.ds0 := rfl
@[simp] theorem jump_pc (v : Word) : (s.jump v).pc = v := rfl
@[simp] theorem jump_psw (v : Word) : (s.jump v).psw = s.psw := rfl
@[simp] theorem jump_mdwe (v : Word) : (s.jump v).mdwe = s.mdwe := rfl
@[simp] theorem jump_xam (v : Word) : (s.jump v).xam = s.xam := rfl
@[simp] theorem jump_inhibit (v : Word) : (s.jump v).inhibit = s.inhibit := rfl
@[simp] theorem jump_halted (v : Word) : (s.jump v).halted = s.halted := rfl
@[simp] theorem jump_prefixes (v : Word) : (s.jump v).prefixes = s.prefixes := rfl
@[simp] theorem jump_start (v : Word) : (s.jump v).start = s.start := rfl
@[simp] theorem jump_window (v : Word) : (s.jump v).window = s.window := rfl
@[simp] theorem jump_inProgress (v : Word) : (s.jump v).inProgress = s.inProgress := rfl
@[simp] theorem jump_breakDue (v : Word) : (s.jump v).breakDue = s.breakDue := rfl
@[simp] theorem jump_nmi (v : Word) : (s.jump v).nmi = s.nmi := rfl
@[simp] theorem jump_int (v : Word) : (s.jump v).int = s.int := rfl
@[simp] theorem jump_nmiVector (v : Word) : (s.jump v).nmiVector = s.nmiVector := rfl
@[simp] theorem jump_pollActive (v : Word) : (s.jump v).pollActive = s.pollActive := rfl
@[simp] theorem jump_ioIn (v : Word) : (s.jump v).ioIn = s.ioIn := rfl
@[simp] theorem jump_ioOut (v : Word) : (s.jump v).ioOut = s.ioOut := rfl
@[simp] theorem jump_stores (v : Word) : (s.jump v).stores = [] := rfl
@[simp] theorem jump_draws (v : Word) : (s.jump v).draws = s.draws := rfl
@[simp] theorem jump_mem (v : Word) : (s.jump v).mem = s.mem := rfl

/-! ### `openWindow` -/

@[simp] theorem openWindow_cls : (s.openWindow).cls = s.cls := rfl
@[simp] theorem openWindow_aw : (s.openWindow).aw = s.aw := rfl
@[simp] theorem openWindow_cw : (s.openWindow).cw = s.cw := rfl
@[simp] theorem openWindow_dw : (s.openWindow).dw = s.dw := rfl
@[simp] theorem openWindow_bw : (s.openWindow).bw = s.bw := rfl
@[simp] theorem openWindow_sp : (s.openWindow).sp = s.sp := rfl
@[simp] theorem openWindow_bp : (s.openWindow).bp = s.bp := rfl
@[simp] theorem openWindow_ix : (s.openWindow).ix = s.ix := rfl
@[simp] theorem openWindow_iy : (s.openWindow).iy = s.iy := rfl
@[simp] theorem openWindow_ds1 : (s.openWindow).ds1 = s.ds1 := rfl
@[simp] theorem openWindow_ps : (s.openWindow).ps = s.ps := rfl
@[simp] theorem openWindow_ss : (s.openWindow).ss = s.ss := rfl
@[simp] theorem openWindow_ds0 : (s.openWindow).ds0 = s.ds0 := rfl
@[simp] theorem openWindow_pc : (s.openWindow).pc = s.pc := rfl
@[simp] theorem openWindow_psw : (s.openWindow).psw = s.psw := rfl
@[simp] theorem openWindow_mdwe : (s.openWindow).mdwe = s.mdwe := rfl
@[simp] theorem openWindow_xam : (s.openWindow).xam = s.xam := rfl
@[simp] theorem openWindow_inhibit : (s.openWindow).inhibit = true := rfl
@[simp] theorem openWindow_halted : (s.openWindow).halted = s.halted := rfl
@[simp] theorem openWindow_prefixes : (s.openWindow).prefixes = s.prefixes := rfl
@[simp] theorem openWindow_start : (s.openWindow).start = s.start := rfl
@[simp] theorem openWindow_window : (s.openWindow).window = s.window := rfl
@[simp] theorem openWindow_inProgress : (s.openWindow).inProgress = s.inProgress := rfl
@[simp] theorem openWindow_breakDue : (s.openWindow).breakDue = s.breakDue := rfl
@[simp] theorem openWindow_nmi : (s.openWindow).nmi = s.nmi := rfl
@[simp] theorem openWindow_int : (s.openWindow).int = s.int := rfl
@[simp] theorem openWindow_nmiVector : (s.openWindow).nmiVector = s.nmiVector := rfl
@[simp] theorem openWindow_pollActive : (s.openWindow).pollActive = s.pollActive := rfl
@[simp] theorem openWindow_ioIn : (s.openWindow).ioIn = s.ioIn := rfl
@[simp] theorem openWindow_ioOut : (s.openWindow).ioOut = s.ioOut := rfl
@[simp] theorem openWindow_stores : (s.openWindow).stores = s.stores := rfl
@[simp] theorem openWindow_draws : (s.openWindow).draws = s.draws := rfl
@[simp] theorem openWindow_mem : (s.openWindow).mem = s.mem := rfl

/-! ### `maskInterrupts` -/

@[simp] theorem maskInterrupts_cls : (s.maskInterrupts).cls = s.cls := rfl
@[simp] theorem maskInterrupts_aw : (s.maskInterrupts).aw = s.aw := rfl
@[simp] theorem maskInterrupts_cw : (s.maskInterrupts).cw = s.cw := rfl
@[simp] theorem maskInterrupts_dw : (s.maskInterrupts).dw = s.dw := rfl
@[simp] theorem maskInterrupts_bw : (s.maskInterrupts).bw = s.bw := rfl
@[simp] theorem maskInterrupts_sp : (s.maskInterrupts).sp = s.sp := rfl
@[simp] theorem maskInterrupts_bp : (s.maskInterrupts).bp = s.bp := rfl
@[simp] theorem maskInterrupts_ix : (s.maskInterrupts).ix = s.ix := rfl
@[simp] theorem maskInterrupts_iy : (s.maskInterrupts).iy = s.iy := rfl
@[simp] theorem maskInterrupts_ds1 : (s.maskInterrupts).ds1 = s.ds1 := rfl
@[simp] theorem maskInterrupts_ps : (s.maskInterrupts).ps = s.ps := rfl
@[simp] theorem maskInterrupts_ss : (s.maskInterrupts).ss = s.ss := rfl
@[simp] theorem maskInterrupts_ds0 : (s.maskInterrupts).ds0 = s.ds0 := rfl
@[simp] theorem maskInterrupts_pc : (s.maskInterrupts).pc = s.pc := rfl
@[simp] theorem maskInterrupts_psw : (s.maskInterrupts).psw = { s.psw with ie := false, brk := false } := rfl
@[simp] theorem maskInterrupts_mdwe : (s.maskInterrupts).mdwe = s.mdwe := rfl
@[simp] theorem maskInterrupts_xam : (s.maskInterrupts).xam = s.xam := rfl
@[simp] theorem maskInterrupts_inhibit : (s.maskInterrupts).inhibit = s.inhibit := rfl
@[simp] theorem maskInterrupts_halted : (s.maskInterrupts).halted = s.halted := rfl
@[simp] theorem maskInterrupts_prefixes : (s.maskInterrupts).prefixes = s.prefixes := rfl
@[simp] theorem maskInterrupts_start : (s.maskInterrupts).start = s.start := rfl
@[simp] theorem maskInterrupts_window : (s.maskInterrupts).window = s.window := rfl
@[simp] theorem maskInterrupts_inProgress : (s.maskInterrupts).inProgress = s.inProgress := rfl
@[simp] theorem maskInterrupts_breakDue : (s.maskInterrupts).breakDue = s.breakDue := rfl
@[simp] theorem maskInterrupts_nmi : (s.maskInterrupts).nmi = s.nmi := rfl
@[simp] theorem maskInterrupts_int : (s.maskInterrupts).int = s.int := rfl
@[simp] theorem maskInterrupts_nmiVector : (s.maskInterrupts).nmiVector = s.nmiVector := rfl
@[simp] theorem maskInterrupts_pollActive : (s.maskInterrupts).pollActive = s.pollActive := rfl
@[simp] theorem maskInterrupts_ioIn : (s.maskInterrupts).ioIn = s.ioIn := rfl
@[simp] theorem maskInterrupts_ioOut : (s.maskInterrupts).ioOut = s.ioOut := rfl
@[simp] theorem maskInterrupts_stores : (s.maskInterrupts).stores = s.stores := rfl
@[simp] theorem maskInterrupts_draws : (s.maskInterrupts).draws = s.draws := rfl
@[simp] theorem maskInterrupts_mem : (s.maskInterrupts).mem = s.mem := rfl

/-! ### `loadPsw` -/

@[simp] theorem loadPsw_cls (v : Word) : (s.loadPsw v).cls = s.cls := rfl
@[simp] theorem loadPsw_aw (v : Word) : (s.loadPsw v).aw = s.aw := rfl
@[simp] theorem loadPsw_cw (v : Word) : (s.loadPsw v).cw = s.cw := rfl
@[simp] theorem loadPsw_dw (v : Word) : (s.loadPsw v).dw = s.dw := rfl
@[simp] theorem loadPsw_bw (v : Word) : (s.loadPsw v).bw = s.bw := rfl
@[simp] theorem loadPsw_sp (v : Word) : (s.loadPsw v).sp = s.sp := rfl
@[simp] theorem loadPsw_bp (v : Word) : (s.loadPsw v).bp = s.bp := rfl
@[simp] theorem loadPsw_ix (v : Word) : (s.loadPsw v).ix = s.ix := rfl
@[simp] theorem loadPsw_iy (v : Word) : (s.loadPsw v).iy = s.iy := rfl
@[simp] theorem loadPsw_ds1 (v : Word) : (s.loadPsw v).ds1 = s.ds1 := rfl
@[simp] theorem loadPsw_ps (v : Word) : (s.loadPsw v).ps = s.ps := rfl
@[simp] theorem loadPsw_ss (v : Word) : (s.loadPsw v).ss = s.ss := rfl
@[simp] theorem loadPsw_ds0 (v : Word) : (s.loadPsw v).ds0 = s.ds0 := rfl
@[simp] theorem loadPsw_pc (v : Word) : (s.loadPsw v).pc = s.pc := rfl
@[simp] theorem loadPsw_psw (v : Word) : (s.loadPsw v).psw = { s.psw.load v with md := if s.cls == .emu && s.mdwe then v.getLsbD 15 else s.psw.md } := rfl
@[simp] theorem loadPsw_mdwe (v : Word) : (s.loadPsw v).mdwe = s.mdwe := rfl
@[simp] theorem loadPsw_xam (v : Word) : (s.loadPsw v).xam = s.xam := rfl
@[simp] theorem loadPsw_inhibit (v : Word) : (s.loadPsw v).inhibit = s.inhibit := rfl
@[simp] theorem loadPsw_halted (v : Word) : (s.loadPsw v).halted = s.halted := rfl
@[simp] theorem loadPsw_prefixes (v : Word) : (s.loadPsw v).prefixes = s.prefixes := rfl
@[simp] theorem loadPsw_start (v : Word) : (s.loadPsw v).start = s.start := rfl
@[simp] theorem loadPsw_window (v : Word) : (s.loadPsw v).window = s.window := rfl
@[simp] theorem loadPsw_inProgress (v : Word) : (s.loadPsw v).inProgress = s.inProgress := rfl
@[simp] theorem loadPsw_breakDue (v : Word) : (s.loadPsw v).breakDue = s.breakDue := rfl
@[simp] theorem loadPsw_nmi (v : Word) : (s.loadPsw v).nmi = s.nmi := rfl
@[simp] theorem loadPsw_int (v : Word) : (s.loadPsw v).int = s.int := rfl
@[simp] theorem loadPsw_nmiVector (v : Word) : (s.loadPsw v).nmiVector = s.nmiVector := rfl
@[simp] theorem loadPsw_pollActive (v : Word) : (s.loadPsw v).pollActive = s.pollActive := rfl
@[simp] theorem loadPsw_ioIn (v : Word) : (s.loadPsw v).ioIn = s.ioIn := rfl
@[simp] theorem loadPsw_ioOut (v : Word) : (s.loadPsw v).ioOut = s.ioOut := rfl
@[simp] theorem loadPsw_stores (v : Word) : (s.loadPsw v).stores = s.stores := rfl
@[simp] theorem loadPsw_draws (v : Word) : (s.loadPsw v).draws = s.draws := rfl
@[simp] theorem loadPsw_mem (v : Word) : (s.loadPsw v).mem = s.mem := rfl

/-! ### `ioWrite` -/

@[simp] theorem ioWrite_cls (w : Width) (p : Word) (v : BitVec w.bits) : (s.ioWrite w p v).cls = s.cls := rfl
@[simp] theorem ioWrite_aw (w : Width) (p : Word) (v : BitVec w.bits) : (s.ioWrite w p v).aw = s.aw := rfl
@[simp] theorem ioWrite_cw (w : Width) (p : Word) (v : BitVec w.bits) : (s.ioWrite w p v).cw = s.cw := rfl
@[simp] theorem ioWrite_dw (w : Width) (p : Word) (v : BitVec w.bits) : (s.ioWrite w p v).dw = s.dw := rfl
@[simp] theorem ioWrite_bw (w : Width) (p : Word) (v : BitVec w.bits) : (s.ioWrite w p v).bw = s.bw := rfl
@[simp] theorem ioWrite_sp (w : Width) (p : Word) (v : BitVec w.bits) : (s.ioWrite w p v).sp = s.sp := rfl
@[simp] theorem ioWrite_bp (w : Width) (p : Word) (v : BitVec w.bits) : (s.ioWrite w p v).bp = s.bp := rfl
@[simp] theorem ioWrite_ix (w : Width) (p : Word) (v : BitVec w.bits) : (s.ioWrite w p v).ix = s.ix := rfl
@[simp] theorem ioWrite_iy (w : Width) (p : Word) (v : BitVec w.bits) : (s.ioWrite w p v).iy = s.iy := rfl
@[simp] theorem ioWrite_ds1 (w : Width) (p : Word) (v : BitVec w.bits) : (s.ioWrite w p v).ds1 = s.ds1 := rfl
@[simp] theorem ioWrite_ps (w : Width) (p : Word) (v : BitVec w.bits) : (s.ioWrite w p v).ps = s.ps := rfl
@[simp] theorem ioWrite_ss (w : Width) (p : Word) (v : BitVec w.bits) : (s.ioWrite w p v).ss = s.ss := rfl
@[simp] theorem ioWrite_ds0 (w : Width) (p : Word) (v : BitVec w.bits) : (s.ioWrite w p v).ds0 = s.ds0 := rfl
@[simp] theorem ioWrite_pc (w : Width) (p : Word) (v : BitVec w.bits) : (s.ioWrite w p v).pc = s.pc := rfl
@[simp] theorem ioWrite_psw (w : Width) (p : Word) (v : BitVec w.bits) : (s.ioWrite w p v).psw = s.psw := rfl
@[simp] theorem ioWrite_mdwe (w : Width) (p : Word) (v : BitVec w.bits) : (s.ioWrite w p v).mdwe = s.mdwe := rfl
@[simp] theorem ioWrite_xam (w : Width) (p : Word) (v : BitVec w.bits) : (s.ioWrite w p v).xam = s.xam := rfl
@[simp] theorem ioWrite_inhibit (w : Width) (p : Word) (v : BitVec w.bits) : (s.ioWrite w p v).inhibit = s.inhibit := rfl
@[simp] theorem ioWrite_halted (w : Width) (p : Word) (v : BitVec w.bits) : (s.ioWrite w p v).halted = s.halted := rfl
@[simp] theorem ioWrite_prefixes (w : Width) (p : Word) (v : BitVec w.bits) : (s.ioWrite w p v).prefixes = s.prefixes := rfl
@[simp] theorem ioWrite_start (w : Width) (p : Word) (v : BitVec w.bits) : (s.ioWrite w p v).start = s.start := rfl
@[simp] theorem ioWrite_window (w : Width) (p : Word) (v : BitVec w.bits) : (s.ioWrite w p v).window = s.window := rfl
@[simp] theorem ioWrite_inProgress (w : Width) (p : Word) (v : BitVec w.bits) : (s.ioWrite w p v).inProgress = s.inProgress := rfl
@[simp] theorem ioWrite_breakDue (w : Width) (p : Word) (v : BitVec w.bits) : (s.ioWrite w p v).breakDue = s.breakDue := rfl
@[simp] theorem ioWrite_nmi (w : Width) (p : Word) (v : BitVec w.bits) : (s.ioWrite w p v).nmi = s.nmi := rfl
@[simp] theorem ioWrite_int (w : Width) (p : Word) (v : BitVec w.bits) : (s.ioWrite w p v).int = s.int := rfl
@[simp] theorem ioWrite_nmiVector (w : Width) (p : Word) (v : BitVec w.bits) : (s.ioWrite w p v).nmiVector = s.nmiVector := rfl
@[simp] theorem ioWrite_pollActive (w : Width) (p : Word) (v : BitVec w.bits) : (s.ioWrite w p v).pollActive = s.pollActive := rfl
@[simp] theorem ioWrite_ioIn (w : Width) (p : Word) (v : BitVec w.bits) : (s.ioWrite w p v).ioIn = s.ioIn := rfl
@[simp] theorem ioWrite_ioOut (w : Width) (p : Word) (v : BitVec w.bits) : (s.ioWrite w p v).ioOut = { port := p, width := w, value := v.setWidth 16 } :: s.ioOut := rfl
@[simp] theorem ioWrite_stores (w : Width) (p : Word) (v : BitVec w.bits) : (s.ioWrite w p v).stores = s.stores := rfl
@[simp] theorem ioWrite_draws (w : Width) (p : Word) (v : BitVec w.bits) : (s.ioWrite w p v).draws = s.draws := rfl
@[simp] theorem ioWrite_mem (w : Width) (p : Word) (v : BitVec w.bits) : (s.ioWrite w p v).mem = s.mem := rfl

/-! ### `undefAC` -/

@[simp] theorem undefAC_cls : (s.undefAC).cls = s.cls := rfl
@[simp] theorem undefAC_aw : (s.undefAC).aw = s.aw := rfl
@[simp] theorem undefAC_cw : (s.undefAC).cw = s.cw := rfl
@[simp] theorem undefAC_dw : (s.undefAC).dw = s.dw := rfl
@[simp] theorem undefAC_bw : (s.undefAC).bw = s.bw := rfl
@[simp] theorem undefAC_sp : (s.undefAC).sp = s.sp := rfl
@[simp] theorem undefAC_bp : (s.undefAC).bp = s.bp := rfl
@[simp] theorem undefAC_ix : (s.undefAC).ix = s.ix := rfl
@[simp] theorem undefAC_iy : (s.undefAC).iy = s.iy := rfl
@[simp] theorem undefAC_ds1 : (s.undefAC).ds1 = s.ds1 := rfl
@[simp] theorem undefAC_ps : (s.undefAC).ps = s.ps := rfl
@[simp] theorem undefAC_ss : (s.undefAC).ss = s.ss := rfl
@[simp] theorem undefAC_ds0 : (s.undefAC).ds0 = s.ds0 := rfl
@[simp] theorem undefAC_pc : (s.undefAC).pc = s.pc := rfl
@[simp] theorem undefAC_psw : (s.undefAC).psw = { s.psw with ac := Config.freeBit s.draws } := rfl
@[simp] theorem undefAC_mdwe : (s.undefAC).mdwe = s.mdwe := rfl
@[simp] theorem undefAC_xam : (s.undefAC).xam = s.xam := rfl
@[simp] theorem undefAC_inhibit : (s.undefAC).inhibit = s.inhibit := rfl
@[simp] theorem undefAC_halted : (s.undefAC).halted = s.halted := rfl
@[simp] theorem undefAC_prefixes : (s.undefAC).prefixes = s.prefixes := rfl
@[simp] theorem undefAC_start : (s.undefAC).start = s.start := rfl
@[simp] theorem undefAC_window : (s.undefAC).window = s.window := rfl
@[simp] theorem undefAC_inProgress : (s.undefAC).inProgress = s.inProgress := rfl
@[simp] theorem undefAC_breakDue : (s.undefAC).breakDue = s.breakDue := rfl
@[simp] theorem undefAC_nmi : (s.undefAC).nmi = s.nmi := rfl
@[simp] theorem undefAC_int : (s.undefAC).int = s.int := rfl
@[simp] theorem undefAC_nmiVector : (s.undefAC).nmiVector = s.nmiVector := rfl
@[simp] theorem undefAC_pollActive : (s.undefAC).pollActive = s.pollActive := rfl
@[simp] theorem undefAC_ioIn : (s.undefAC).ioIn = s.ioIn := rfl
@[simp] theorem undefAC_ioOut : (s.undefAC).ioOut = s.ioOut := rfl
@[simp] theorem undefAC_stores : (s.undefAC).stores = s.stores := rfl
@[simp] theorem undefAC_draws : (s.undefAC).draws = s.draws + 1 := rfl
@[simp] theorem undefAC_mem : (s.undefAC).mem = s.mem := rfl

/-! ### `undefCY` -/

@[simp] theorem undefCY_cls : (s.undefCY).cls = s.cls := rfl
@[simp] theorem undefCY_aw : (s.undefCY).aw = s.aw := rfl
@[simp] theorem undefCY_cw : (s.undefCY).cw = s.cw := rfl
@[simp] theorem undefCY_dw : (s.undefCY).dw = s.dw := rfl
@[simp] theorem undefCY_bw : (s.undefCY).bw = s.bw := rfl
@[simp] theorem undefCY_sp : (s.undefCY).sp = s.sp := rfl
@[simp] theorem undefCY_bp : (s.undefCY).bp = s.bp := rfl
@[simp] theorem undefCY_ix : (s.undefCY).ix = s.ix := rfl
@[simp] theorem undefCY_iy : (s.undefCY).iy = s.iy := rfl
@[simp] theorem undefCY_ds1 : (s.undefCY).ds1 = s.ds1 := rfl
@[simp] theorem undefCY_ps : (s.undefCY).ps = s.ps := rfl
@[simp] theorem undefCY_ss : (s.undefCY).ss = s.ss := rfl
@[simp] theorem undefCY_ds0 : (s.undefCY).ds0 = s.ds0 := rfl
@[simp] theorem undefCY_pc : (s.undefCY).pc = s.pc := rfl
@[simp] theorem undefCY_psw : (s.undefCY).psw = { s.psw with cy := Config.freeBit s.draws } := rfl
@[simp] theorem undefCY_mdwe : (s.undefCY).mdwe = s.mdwe := rfl
@[simp] theorem undefCY_xam : (s.undefCY).xam = s.xam := rfl
@[simp] theorem undefCY_inhibit : (s.undefCY).inhibit = s.inhibit := rfl
@[simp] theorem undefCY_halted : (s.undefCY).halted = s.halted := rfl
@[simp] theorem undefCY_prefixes : (s.undefCY).prefixes = s.prefixes := rfl
@[simp] theorem undefCY_start : (s.undefCY).start = s.start := rfl
@[simp] theorem undefCY_window : (s.undefCY).window = s.window := rfl
@[simp] theorem undefCY_inProgress : (s.undefCY).inProgress = s.inProgress := rfl
@[simp] theorem undefCY_breakDue : (s.undefCY).breakDue = s.breakDue := rfl
@[simp] theorem undefCY_nmi : (s.undefCY).nmi = s.nmi := rfl
@[simp] theorem undefCY_int : (s.undefCY).int = s.int := rfl
@[simp] theorem undefCY_nmiVector : (s.undefCY).nmiVector = s.nmiVector := rfl
@[simp] theorem undefCY_pollActive : (s.undefCY).pollActive = s.pollActive := rfl
@[simp] theorem undefCY_ioIn : (s.undefCY).ioIn = s.ioIn := rfl
@[simp] theorem undefCY_ioOut : (s.undefCY).ioOut = s.ioOut := rfl
@[simp] theorem undefCY_stores : (s.undefCY).stores = s.stores := rfl
@[simp] theorem undefCY_draws : (s.undefCY).draws = s.draws + 1 := rfl
@[simp] theorem undefCY_mem : (s.undefCY).mem = s.mem := rfl

/-! ### `undefV` -/

@[simp] theorem undefV_cls : (s.undefV).cls = s.cls := rfl
@[simp] theorem undefV_aw : (s.undefV).aw = s.aw := rfl
@[simp] theorem undefV_cw : (s.undefV).cw = s.cw := rfl
@[simp] theorem undefV_dw : (s.undefV).dw = s.dw := rfl
@[simp] theorem undefV_bw : (s.undefV).bw = s.bw := rfl
@[simp] theorem undefV_sp : (s.undefV).sp = s.sp := rfl
@[simp] theorem undefV_bp : (s.undefV).bp = s.bp := rfl
@[simp] theorem undefV_ix : (s.undefV).ix = s.ix := rfl
@[simp] theorem undefV_iy : (s.undefV).iy = s.iy := rfl
@[simp] theorem undefV_ds1 : (s.undefV).ds1 = s.ds1 := rfl
@[simp] theorem undefV_ps : (s.undefV).ps = s.ps := rfl
@[simp] theorem undefV_ss : (s.undefV).ss = s.ss := rfl
@[simp] theorem undefV_ds0 : (s.undefV).ds0 = s.ds0 := rfl
@[simp] theorem undefV_pc : (s.undefV).pc = s.pc := rfl
@[simp] theorem undefV_psw : (s.undefV).psw = { s.psw with v := Config.freeBit s.draws } := rfl
@[simp] theorem undefV_mdwe : (s.undefV).mdwe = s.mdwe := rfl
@[simp] theorem undefV_xam : (s.undefV).xam = s.xam := rfl
@[simp] theorem undefV_inhibit : (s.undefV).inhibit = s.inhibit := rfl
@[simp] theorem undefV_halted : (s.undefV).halted = s.halted := rfl
@[simp] theorem undefV_prefixes : (s.undefV).prefixes = s.prefixes := rfl
@[simp] theorem undefV_start : (s.undefV).start = s.start := rfl
@[simp] theorem undefV_window : (s.undefV).window = s.window := rfl
@[simp] theorem undefV_inProgress : (s.undefV).inProgress = s.inProgress := rfl
@[simp] theorem undefV_breakDue : (s.undefV).breakDue = s.breakDue := rfl
@[simp] theorem undefV_nmi : (s.undefV).nmi = s.nmi := rfl
@[simp] theorem undefV_int : (s.undefV).int = s.int := rfl
@[simp] theorem undefV_nmiVector : (s.undefV).nmiVector = s.nmiVector := rfl
@[simp] theorem undefV_pollActive : (s.undefV).pollActive = s.pollActive := rfl
@[simp] theorem undefV_ioIn : (s.undefV).ioIn = s.ioIn := rfl
@[simp] theorem undefV_ioOut : (s.undefV).ioOut = s.ioOut := rfl
@[simp] theorem undefV_stores : (s.undefV).stores = s.stores := rfl
@[simp] theorem undefV_draws : (s.undefV).draws = s.draws + 1 := rfl
@[simp] theorem undefV_mem : (s.undefV).mem = s.mem := rfl

/-! ### `undefP` -/

@[simp] theorem undefP_cls : (s.undefP).cls = s.cls := rfl
@[simp] theorem undefP_aw : (s.undefP).aw = s.aw := rfl
@[simp] theorem undefP_cw : (s.undefP).cw = s.cw := rfl
@[simp] theorem undefP_dw : (s.undefP).dw = s.dw := rfl
@[simp] theorem undefP_bw : (s.undefP).bw = s.bw := rfl
@[simp] theorem undefP_sp : (s.undefP).sp = s.sp := rfl
@[simp] theorem undefP_bp : (s.undefP).bp = s.bp := rfl
@[simp] theorem undefP_ix : (s.undefP).ix = s.ix := rfl
@[simp] theorem undefP_iy : (s.undefP).iy = s.iy := rfl
@[simp] theorem undefP_ds1 : (s.undefP).ds1 = s.ds1 := rfl
@[simp] theorem undefP_ps : (s.undefP).ps = s.ps := rfl
@[simp] theorem undefP_ss : (s.undefP).ss = s.ss := rfl
@[simp] theorem undefP_ds0 : (s.undefP).ds0 = s.ds0 := rfl
@[simp] theorem undefP_pc : (s.undefP).pc = s.pc := rfl
@[simp] theorem undefP_psw : (s.undefP).psw = { s.psw with p := Config.freeBit s.draws } := rfl
@[simp] theorem undefP_mdwe : (s.undefP).mdwe = s.mdwe := rfl
@[simp] theorem undefP_xam : (s.undefP).xam = s.xam := rfl
@[simp] theorem undefP_inhibit : (s.undefP).inhibit = s.inhibit := rfl
@[simp] theorem undefP_halted : (s.undefP).halted = s.halted := rfl
@[simp] theorem undefP_prefixes : (s.undefP).prefixes = s.prefixes := rfl
@[simp] theorem undefP_start : (s.undefP).start = s.start := rfl
@[simp] theorem undefP_window : (s.undefP).window = s.window := rfl
@[simp] theorem undefP_inProgress : (s.undefP).inProgress = s.inProgress := rfl
@[simp] theorem undefP_breakDue : (s.undefP).breakDue = s.breakDue := rfl
@[simp] theorem undefP_nmi : (s.undefP).nmi = s.nmi := rfl
@[simp] theorem undefP_int : (s.undefP).int = s.int := rfl
@[simp] theorem undefP_nmiVector : (s.undefP).nmiVector = s.nmiVector := rfl
@[simp] theorem undefP_pollActive : (s.undefP).pollActive = s.pollActive := rfl
@[simp] theorem undefP_ioIn : (s.undefP).ioIn = s.ioIn := rfl
@[simp] theorem undefP_ioOut : (s.undefP).ioOut = s.ioOut := rfl
@[simp] theorem undefP_stores : (s.undefP).stores = s.stores := rfl
@[simp] theorem undefP_draws : (s.undefP).draws = s.draws + 1 := rfl
@[simp] theorem undefP_mem : (s.undefP).mem = s.mem := rfl

/-! ### `undefS` -/

@[simp] theorem undefS_cls : (s.undefS).cls = s.cls := rfl
@[simp] theorem undefS_aw : (s.undefS).aw = s.aw := rfl
@[simp] theorem undefS_cw : (s.undefS).cw = s.cw := rfl
@[simp] theorem undefS_dw : (s.undefS).dw = s.dw := rfl
@[simp] theorem undefS_bw : (s.undefS).bw = s.bw := rfl
@[simp] theorem undefS_sp : (s.undefS).sp = s.sp := rfl
@[simp] theorem undefS_bp : (s.undefS).bp = s.bp := rfl
@[simp] theorem undefS_ix : (s.undefS).ix = s.ix := rfl
@[simp] theorem undefS_iy : (s.undefS).iy = s.iy := rfl
@[simp] theorem undefS_ds1 : (s.undefS).ds1 = s.ds1 := rfl
@[simp] theorem undefS_ps : (s.undefS).ps = s.ps := rfl
@[simp] theorem undefS_ss : (s.undefS).ss = s.ss := rfl
@[simp] theorem undefS_ds0 : (s.undefS).ds0 = s.ds0 := rfl
@[simp] theorem undefS_pc : (s.undefS).pc = s.pc := rfl
@[simp] theorem undefS_psw : (s.undefS).psw = { s.psw with s := Config.freeBit s.draws } := rfl
@[simp] theorem undefS_mdwe : (s.undefS).mdwe = s.mdwe := rfl
@[simp] theorem undefS_xam : (s.undefS).xam = s.xam := rfl
@[simp] theorem undefS_inhibit : (s.undefS).inhibit = s.inhibit := rfl
@[simp] theorem undefS_halted : (s.undefS).halted = s.halted := rfl
@[simp] theorem undefS_prefixes : (s.undefS).prefixes = s.prefixes := rfl
@[simp] theorem undefS_start : (s.undefS).start = s.start := rfl
@[simp] theorem undefS_window : (s.undefS).window = s.window := rfl
@[simp] theorem undefS_inProgress : (s.undefS).inProgress = s.inProgress := rfl
@[simp] theorem undefS_breakDue : (s.undefS).breakDue = s.breakDue := rfl
@[simp] theorem undefS_nmi : (s.undefS).nmi = s.nmi := rfl
@[simp] theorem undefS_int : (s.undefS).int = s.int := rfl
@[simp] theorem undefS_nmiVector : (s.undefS).nmiVector = s.nmiVector := rfl
@[simp] theorem undefS_pollActive : (s.undefS).pollActive = s.pollActive := rfl
@[simp] theorem undefS_ioIn : (s.undefS).ioIn = s.ioIn := rfl
@[simp] theorem undefS_ioOut : (s.undefS).ioOut = s.ioOut := rfl
@[simp] theorem undefS_stores : (s.undefS).stores = s.stores := rfl
@[simp] theorem undefS_draws : (s.undefS).draws = s.draws + 1 := rfl
@[simp] theorem undefS_mem : (s.undefS).mem = s.mem := rfl

/-! ### `undefZ` -/

@[simp] theorem undefZ_cls : (s.undefZ).cls = s.cls := rfl
@[simp] theorem undefZ_aw : (s.undefZ).aw = s.aw := rfl
@[simp] theorem undefZ_cw : (s.undefZ).cw = s.cw := rfl
@[simp] theorem undefZ_dw : (s.undefZ).dw = s.dw := rfl
@[simp] theorem undefZ_bw : (s.undefZ).bw = s.bw := rfl
@[simp] theorem undefZ_sp : (s.undefZ).sp = s.sp := rfl
@[simp] theorem undefZ_bp : (s.undefZ).bp = s.bp := rfl
@[simp] theorem undefZ_ix : (s.undefZ).ix = s.ix := rfl
@[simp] theorem undefZ_iy : (s.undefZ).iy = s.iy := rfl
@[simp] theorem undefZ_ds1 : (s.undefZ).ds1 = s.ds1 := rfl
@[simp] theorem undefZ_ps : (s.undefZ).ps = s.ps := rfl
@[simp] theorem undefZ_ss : (s.undefZ).ss = s.ss := rfl
@[simp] theorem undefZ_ds0 : (s.undefZ).ds0 = s.ds0 := rfl
@[simp] theorem undefZ_pc : (s.undefZ).pc = s.pc := rfl
@[simp] theorem undefZ_psw : (s.undefZ).psw = { s.psw with z := Config.freeBit s.draws } := rfl
@[simp] theorem undefZ_mdwe : (s.undefZ).mdwe = s.mdwe := rfl
@[simp] theorem undefZ_xam : (s.undefZ).xam = s.xam := rfl
@[simp] theorem undefZ_inhibit : (s.undefZ).inhibit = s.inhibit := rfl
@[simp] theorem undefZ_halted : (s.undefZ).halted = s.halted := rfl
@[simp] theorem undefZ_prefixes : (s.undefZ).prefixes = s.prefixes := rfl
@[simp] theorem undefZ_start : (s.undefZ).start = s.start := rfl
@[simp] theorem undefZ_window : (s.undefZ).window = s.window := rfl
@[simp] theorem undefZ_inProgress : (s.undefZ).inProgress = s.inProgress := rfl
@[simp] theorem undefZ_breakDue : (s.undefZ).breakDue = s.breakDue := rfl
@[simp] theorem undefZ_nmi : (s.undefZ).nmi = s.nmi := rfl
@[simp] theorem undefZ_int : (s.undefZ).int = s.int := rfl
@[simp] theorem undefZ_nmiVector : (s.undefZ).nmiVector = s.nmiVector := rfl
@[simp] theorem undefZ_pollActive : (s.undefZ).pollActive = s.pollActive := rfl
@[simp] theorem undefZ_ioIn : (s.undefZ).ioIn = s.ioIn := rfl
@[simp] theorem undefZ_ioOut : (s.undefZ).ioOut = s.ioOut := rfl
@[simp] theorem undefZ_stores : (s.undefZ).stores = s.stores := rfl
@[simp] theorem undefZ_draws : (s.undefZ).draws = s.draws + 1 := rfl
@[simp] theorem undefZ_mem : (s.undefZ).mem = s.mem := rfl

/-! ### `setReg16` -/

@[simp] theorem setReg16_cls (r : Reg) (v : Word) : (s.setReg16 r v).cls = s.cls := by cases r <;> rfl
@[simp] theorem setReg16_ds1 (r : Reg) (v : Word) : (s.setReg16 r v).ds1 = s.ds1 := by cases r <;> rfl
@[simp] theorem setReg16_ps (r : Reg) (v : Word) : (s.setReg16 r v).ps = s.ps := by cases r <;> rfl
@[simp] theorem setReg16_ss (r : Reg) (v : Word) : (s.setReg16 r v).ss = s.ss := by cases r <;> rfl
@[simp] theorem setReg16_ds0 (r : Reg) (v : Word) : (s.setReg16 r v).ds0 = s.ds0 := by cases r <;> rfl
@[simp] theorem setReg16_pc (r : Reg) (v : Word) : (s.setReg16 r v).pc = s.pc := by cases r <;> rfl
@[simp] theorem setReg16_psw (r : Reg) (v : Word) : (s.setReg16 r v).psw = s.psw := by cases r <;> rfl
@[simp] theorem setReg16_mdwe (r : Reg) (v : Word) : (s.setReg16 r v).mdwe = s.mdwe := by cases r <;> rfl
@[simp] theorem setReg16_xam (r : Reg) (v : Word) : (s.setReg16 r v).xam = s.xam := by cases r <;> rfl
@[simp] theorem setReg16_inhibit (r : Reg) (v : Word) : (s.setReg16 r v).inhibit = s.inhibit := by cases r <;> rfl
@[simp] theorem setReg16_halted (r : Reg) (v : Word) : (s.setReg16 r v).halted = s.halted := by cases r <;> rfl
@[simp] theorem setReg16_prefixes (r : Reg) (v : Word) : (s.setReg16 r v).prefixes = s.prefixes := by cases r <;> rfl
@[simp] theorem setReg16_start (r : Reg) (v : Word) : (s.setReg16 r v).start = s.start := by cases r <;> rfl
@[simp] theorem setReg16_window (r : Reg) (v : Word) : (s.setReg16 r v).window = s.window := by cases r <;> rfl
@[simp] theorem setReg16_inProgress (r : Reg) (v : Word) : (s.setReg16 r v).inProgress = s.inProgress := by cases r <;> rfl
@[simp] theorem setReg16_breakDue (r : Reg) (v : Word) : (s.setReg16 r v).breakDue = s.breakDue := by cases r <;> rfl
@[simp] theorem setReg16_nmi (r : Reg) (v : Word) : (s.setReg16 r v).nmi = s.nmi := by cases r <;> rfl
@[simp] theorem setReg16_int (r : Reg) (v : Word) : (s.setReg16 r v).int = s.int := by cases r <;> rfl
@[simp] theorem setReg16_nmiVector (r : Reg) (v : Word) : (s.setReg16 r v).nmiVector = s.nmiVector := by cases r <;> rfl
@[simp] theorem setReg16_pollActive (r : Reg) (v : Word) : (s.setReg16 r v).pollActive = s.pollActive := by cases r <;> rfl
@[simp] theorem setReg16_ioIn (r : Reg) (v : Word) : (s.setReg16 r v).ioIn = s.ioIn := by cases r <;> rfl
@[simp] theorem setReg16_ioOut (r : Reg) (v : Word) : (s.setReg16 r v).ioOut = s.ioOut := by cases r <;> rfl
@[simp] theorem setReg16_stores (r : Reg) (v : Word) : (s.setReg16 r v).stores = s.stores := by cases r <;> rfl
@[simp] theorem setReg16_draws (r : Reg) (v : Word) : (s.setReg16 r v).draws = s.draws := by cases r <;> rfl
@[simp] theorem setReg16_mem (r : Reg) (v : Word) : (s.setReg16 r v).mem = s.mem := by cases r <;> rfl

/-! ### `setReg8` -/

@[simp] theorem setReg8_cls (r : Reg) (v : Byte) : (s.setReg8 r v).cls = s.cls := by cases r <;> rfl
@[simp] theorem setReg8_sp (r : Reg) (v : Byte) : (s.setReg8 r v).sp = s.sp := by cases r <;> rfl
@[simp] theorem setReg8_bp (r : Reg) (v : Byte) : (s.setReg8 r v).bp = s.bp := by cases r <;> rfl
@[simp] theorem setReg8_ix (r : Reg) (v : Byte) : (s.setReg8 r v).ix = s.ix := by cases r <;> rfl
@[simp] theorem setReg8_iy (r : Reg) (v : Byte) : (s.setReg8 r v).iy = s.iy := by cases r <;> rfl
@[simp] theorem setReg8_ds1 (r : Reg) (v : Byte) : (s.setReg8 r v).ds1 = s.ds1 := by cases r <;> rfl
@[simp] theorem setReg8_ps (r : Reg) (v : Byte) : (s.setReg8 r v).ps = s.ps := by cases r <;> rfl
@[simp] theorem setReg8_ss (r : Reg) (v : Byte) : (s.setReg8 r v).ss = s.ss := by cases r <;> rfl
@[simp] theorem setReg8_ds0 (r : Reg) (v : Byte) : (s.setReg8 r v).ds0 = s.ds0 := by cases r <;> rfl
@[simp] theorem setReg8_pc (r : Reg) (v : Byte) : (s.setReg8 r v).pc = s.pc := by cases r <;> rfl
@[simp] theorem setReg8_psw (r : Reg) (v : Byte) : (s.setReg8 r v).psw = s.psw := by cases r <;> rfl
@[simp] theorem setReg8_mdwe (r : Reg) (v : Byte) : (s.setReg8 r v).mdwe = s.mdwe := by cases r <;> rfl
@[simp] theorem setReg8_xam (r : Reg) (v : Byte) : (s.setReg8 r v).xam = s.xam := by cases r <;> rfl
@[simp] theorem setReg8_inhibit (r : Reg) (v : Byte) : (s.setReg8 r v).inhibit = s.inhibit := by cases r <;> rfl
@[simp] theorem setReg8_halted (r : Reg) (v : Byte) : (s.setReg8 r v).halted = s.halted := by cases r <;> rfl
@[simp] theorem setReg8_prefixes (r : Reg) (v : Byte) : (s.setReg8 r v).prefixes = s.prefixes := by cases r <;> rfl
@[simp] theorem setReg8_start (r : Reg) (v : Byte) : (s.setReg8 r v).start = s.start := by cases r <;> rfl
@[simp] theorem setReg8_window (r : Reg) (v : Byte) : (s.setReg8 r v).window = s.window := by cases r <;> rfl
@[simp] theorem setReg8_inProgress (r : Reg) (v : Byte) : (s.setReg8 r v).inProgress = s.inProgress := by cases r <;> rfl
@[simp] theorem setReg8_breakDue (r : Reg) (v : Byte) : (s.setReg8 r v).breakDue = s.breakDue := by cases r <;> rfl
@[simp] theorem setReg8_nmi (r : Reg) (v : Byte) : (s.setReg8 r v).nmi = s.nmi := by cases r <;> rfl
@[simp] theorem setReg8_int (r : Reg) (v : Byte) : (s.setReg8 r v).int = s.int := by cases r <;> rfl
@[simp] theorem setReg8_nmiVector (r : Reg) (v : Byte) : (s.setReg8 r v).nmiVector = s.nmiVector := by cases r <;> rfl
@[simp] theorem setReg8_pollActive (r : Reg) (v : Byte) : (s.setReg8 r v).pollActive = s.pollActive := by cases r <;> rfl
@[simp] theorem setReg8_ioIn (r : Reg) (v : Byte) : (s.setReg8 r v).ioIn = s.ioIn := by cases r <;> rfl
@[simp] theorem setReg8_ioOut (r : Reg) (v : Byte) : (s.setReg8 r v).ioOut = s.ioOut := by cases r <;> rfl
@[simp] theorem setReg8_stores (r : Reg) (v : Byte) : (s.setReg8 r v).stores = s.stores := by cases r <;> rfl
@[simp] theorem setReg8_draws (r : Reg) (v : Byte) : (s.setReg8 r v).draws = s.draws := by cases r <;> rfl
@[simp] theorem setReg8_mem (r : Reg) (v : Byte) : (s.setReg8 r v).mem = s.mem := by cases r <;> rfl

/-! ### `setSreg` -/

@[simp] theorem setSreg_cls (r : DataSReg) (v : Word) : (s.setSreg r v).cls = s.cls := by cases r <;> rfl
@[simp] theorem setSreg_aw (r : DataSReg) (v : Word) : (s.setSreg r v).aw = s.aw := by cases r <;> rfl
@[simp] theorem setSreg_cw (r : DataSReg) (v : Word) : (s.setSreg r v).cw = s.cw := by cases r <;> rfl
@[simp] theorem setSreg_dw (r : DataSReg) (v : Word) : (s.setSreg r v).dw = s.dw := by cases r <;> rfl
@[simp] theorem setSreg_bw (r : DataSReg) (v : Word) : (s.setSreg r v).bw = s.bw := by cases r <;> rfl
@[simp] theorem setSreg_sp (r : DataSReg) (v : Word) : (s.setSreg r v).sp = s.sp := by cases r <;> rfl
@[simp] theorem setSreg_bp (r : DataSReg) (v : Word) : (s.setSreg r v).bp = s.bp := by cases r <;> rfl
@[simp] theorem setSreg_ix (r : DataSReg) (v : Word) : (s.setSreg r v).ix = s.ix := by cases r <;> rfl
@[simp] theorem setSreg_iy (r : DataSReg) (v : Word) : (s.setSreg r v).iy = s.iy := by cases r <;> rfl
@[simp] theorem setSreg_ps (r : DataSReg) (v : Word) : (s.setSreg r v).ps = s.ps := by cases r <;> rfl
@[simp] theorem setSreg_pc (r : DataSReg) (v : Word) : (s.setSreg r v).pc = s.pc := by cases r <;> rfl
@[simp] theorem setSreg_psw (r : DataSReg) (v : Word) : (s.setSreg r v).psw = s.psw := by cases r <;> rfl
@[simp] theorem setSreg_mdwe (r : DataSReg) (v : Word) : (s.setSreg r v).mdwe = s.mdwe := by cases r <;> rfl
@[simp] theorem setSreg_xam (r : DataSReg) (v : Word) : (s.setSreg r v).xam = s.xam := by cases r <;> rfl
@[simp] theorem setSreg_inhibit (r : DataSReg) (v : Word) : (s.setSreg r v).inhibit = s.inhibit := by cases r <;> rfl
@[simp] theorem setSreg_halted (r : DataSReg) (v : Word) : (s.setSreg r v).halted = s.halted := by cases r <;> rfl
@[simp] theorem setSreg_prefixes (r : DataSReg) (v : Word) : (s.setSreg r v).prefixes = s.prefixes := by cases r <;> rfl
@[simp] theorem setSreg_start (r : DataSReg) (v : Word) : (s.setSreg r v).start = s.start := by cases r <;> rfl
@[simp] theorem setSreg_window (r : DataSReg) (v : Word) : (s.setSreg r v).window = s.window := by cases r <;> rfl
@[simp] theorem setSreg_inProgress (r : DataSReg) (v : Word) : (s.setSreg r v).inProgress = s.inProgress := by cases r <;> rfl
@[simp] theorem setSreg_breakDue (r : DataSReg) (v : Word) : (s.setSreg r v).breakDue = s.breakDue := by cases r <;> rfl
@[simp] theorem setSreg_nmi (r : DataSReg) (v : Word) : (s.setSreg r v).nmi = s.nmi := by cases r <;> rfl
@[simp] theorem setSreg_int (r : DataSReg) (v : Word) : (s.setSreg r v).int = s.int := by cases r <;> rfl
@[simp] theorem setSreg_nmiVector (r : DataSReg) (v : Word) : (s.setSreg r v).nmiVector = s.nmiVector := by cases r <;> rfl
@[simp] theorem setSreg_pollActive (r : DataSReg) (v : Word) : (s.setSreg r v).pollActive = s.pollActive := by cases r <;> rfl
@[simp] theorem setSreg_ioIn (r : DataSReg) (v : Word) : (s.setSreg r v).ioIn = s.ioIn := by cases r <;> rfl
@[simp] theorem setSreg_ioOut (r : DataSReg) (v : Word) : (s.setSreg r v).ioOut = s.ioOut := by cases r <;> rfl
@[simp] theorem setSreg_stores (r : DataSReg) (v : Word) : (s.setSreg r v).stores = s.stores := by cases r <;> rfl
@[simp] theorem setSreg_draws (r : DataSReg) (v : Word) : (s.setSreg r v).draws = s.draws := by cases r <;> rfl
@[simp] theorem setSreg_mem (r : DataSReg) (v : Word) : (s.setSreg r v).mem = s.mem := by cases r <;> rfl

/-! ### `setReg` -/

@[simp] theorem setReg_cls (w : Width) (r : Reg) (v : BitVec w.bits) : (s.setReg w r v).cls = s.cls := by
  cases w <;> cases r <;> rfl
@[simp] theorem setReg_ds1 (w : Width) (r : Reg) (v : BitVec w.bits) : (s.setReg w r v).ds1 = s.ds1 := by
  cases w <;> cases r <;> rfl
@[simp] theorem setReg_ps (w : Width) (r : Reg) (v : BitVec w.bits) : (s.setReg w r v).ps = s.ps := by
  cases w <;> cases r <;> rfl
@[simp] theorem setReg_ss (w : Width) (r : Reg) (v : BitVec w.bits) : (s.setReg w r v).ss = s.ss := by
  cases w <;> cases r <;> rfl
@[simp] theorem setReg_ds0 (w : Width) (r : Reg) (v : BitVec w.bits) : (s.setReg w r v).ds0 = s.ds0 := by
  cases w <;> cases r <;> rfl
@[simp] theorem setReg_pc (w : Width) (r : Reg) (v : BitVec w.bits) : (s.setReg w r v).pc = s.pc := by
  cases w <;> cases r <;> rfl
@[simp] theorem setReg_psw (w : Width) (r : Reg) (v : BitVec w.bits) : (s.setReg w r v).psw = s.psw := by
  cases w <;> cases r <;> rfl
@[simp] theorem setReg_mdwe (w : Width) (r : Reg) (v : BitVec w.bits) : (s.setReg w r v).mdwe = s.mdwe := by
  cases w <;> cases r <;> rfl
@[simp] theorem setReg_xam (w : Width) (r : Reg) (v : BitVec w.bits) : (s.setReg w r v).xam = s.xam := by
  cases w <;> cases r <;> rfl
@[simp] theorem setReg_inhibit (w : Width) (r : Reg) (v : BitVec w.bits) : (s.setReg w r v).inhibit = s.inhibit := by
  cases w <;> cases r <;> rfl
@[simp] theorem setReg_halted (w : Width) (r : Reg) (v : BitVec w.bits) : (s.setReg w r v).halted = s.halted := by
  cases w <;> cases r <;> rfl
@[simp] theorem setReg_prefixes (w : Width) (r : Reg) (v : BitVec w.bits) : (s.setReg w r v).prefixes = s.prefixes := by
  cases w <;> cases r <;> rfl
@[simp] theorem setReg_start (w : Width) (r : Reg) (v : BitVec w.bits) : (s.setReg w r v).start = s.start := by
  cases w <;> cases r <;> rfl
@[simp] theorem setReg_window (w : Width) (r : Reg) (v : BitVec w.bits) : (s.setReg w r v).window = s.window := by
  cases w <;> cases r <;> rfl
@[simp] theorem setReg_inProgress (w : Width) (r : Reg) (v : BitVec w.bits) : (s.setReg w r v).inProgress = s.inProgress := by
  cases w <;> cases r <;> rfl
@[simp] theorem setReg_breakDue (w : Width) (r : Reg) (v : BitVec w.bits) : (s.setReg w r v).breakDue = s.breakDue := by
  cases w <;> cases r <;> rfl
@[simp] theorem setReg_nmi (w : Width) (r : Reg) (v : BitVec w.bits) : (s.setReg w r v).nmi = s.nmi := by
  cases w <;> cases r <;> rfl
@[simp] theorem setReg_int (w : Width) (r : Reg) (v : BitVec w.bits) : (s.setReg w r v).int = s.int := by
  cases w <;> cases r <;> rfl
@[simp] theorem setReg_nmiVector (w : Width) (r : Reg) (v : BitVec w.bits) : (s.setReg w r v).nmiVector = s.nmiVector := by
  cases w <;> cases r <;> rfl
@[simp] theorem setReg_pollActive (w : Width) (r : Reg) (v : BitVec w.bits) : (s.setReg w r v).pollActive = s.pollActive := by
  cases w <;> cases r <;> rfl
@[simp] theorem setReg_ioIn (w : Width) (r : Reg) (v : BitVec w.bits) : (s.setReg w r v).ioIn = s.ioIn := by
  cases w <;> cases r <;> rfl
@[simp] theorem setReg_ioOut (w : Width) (r : Reg) (v : BitVec w.bits) : (s.setReg w r v).ioOut = s.ioOut := by
  cases w <;> cases r <;> rfl
@[simp] theorem setReg_stores (w : Width) (r : Reg) (v : BitVec w.bits) : (s.setReg w r v).stores = s.stores := by
  cases w <;> cases r <;> rfl
@[simp] theorem setReg_draws (w : Width) (r : Reg) (v : BitVec w.bits) : (s.setReg w r v).draws = s.draws := by
  cases w <;> cases r <;> rfl
@[simp] theorem setReg_mem (w : Width) (r : Reg) (v : BitVec w.bits) : (s.setReg w r v).mem = s.mem := by
  cases w <;> cases r <;> rfl

/-! ### Register accessors -/

@[simp] theorem reg16_setReg16 (r : Reg) (v : Word) : (s.setReg16 r v).reg16 r = v := by cases r <;> rfl

theorem reg16_setReg16_ne (r q : Reg) (v : Word) (h : q ≠ r) : (s.setReg16 r v).reg16 q = s.reg16 q := by
  cases r <;> cases q <;> first | rfl | exact absurd rfl h

@[simp] theorem sreg_setSreg (r : DataSReg) (v : Word) : (s.setSreg r v).sreg r.toSReg = v := by cases r <;> rfl

theorem sreg_setSreg_ne (r : DataSReg) (q : SReg) (v : Word) (h : q ≠ r.toSReg) :
    (s.setSreg r v).sreg q = s.sreg q := by
  cases r <;> cases q <;> first | rfl | exact absurd rfl h

/-! ### Addresses depend on the class and XAM alone -/

theorem place_congr {s t : State} (hc : t.cls = s.cls) (hx : t.xam = s.xam) (l : BitVec 20) :
    t.place l = s.place l := by
  simp [place, xaOn, hc, hx]

theorem addr_congr {s t : State} (hc : t.cls = s.cls) (hx : t.xam = s.xam) (seg off : Word) :
    t.addr seg off = s.addr seg off := place_congr hc hx _

theorem addrHigh_congr {s t : State} (hc : t.cls = s.cls) (hx : t.xam = s.xam) (seg off : Word) :
    t.addrHigh seg off = s.addrHigh seg off := by
  simp [addrHigh, addr, xaOn, place_congr hc hx, hc, hx]

theorem readByte_congr {s t : State} (hc : t.cls = s.cls) (hx : t.xam = s.xam) (hm : t.mem = s.mem)
    (seg off : Word) : t.readByte seg off = s.readByte seg off := by
  simp [readByte, hm, addr_congr hc hx]

theorem readWord_congr {s t : State} (hc : t.cls = s.cls) (hx : t.xam = s.xam) (hm : t.mem = s.mem)
    (seg off : Word) : t.readWord seg off = s.readWord seg off := by
  simp [readWord, hm, addr_congr hc hx, addrHigh_congr hc hx]

end Sys2Proof.Machine.State
end

