-- ==== Sys2Proof/Laws/Ops.lean ====
section
/-! SUPPORT. What each shared operation over memory, registers and the stack can do, said once. -/

namespace Sys2Proof.Machine.State

/-! ### Addresses -/

/-- In the normal address mode an address is `(seg × 16 + off) mod 2^20` (R40). -/
theorem addr_normal {s : State} (h : s.NormalAddresses) (seg off : Word) :
    s.addr seg off = (seg.toNat * 16 + off.toNat) % 2 ^ 20 := by
  have hs := seg.isLt
  have ho := off.isLt
  simp [addr, place, h, logical]

/-- In the normal address mode different offsets of a segment are different addresses. -/
theorem addr_ne {s : State} (h : s.NormalAddresses) (seg : Word) {a b : Word} (hab : a ≠ b) :
    s.addr seg a ≠ s.addr seg b := by
  have ha := a.isLt
  have hb := b.isLt
  have hs := seg.isLt
  have : a.toNat ≠ b.toNat := fun e => hab (BitVec.eq_of_toNat_eq e)
  rw [addr_normal h, addr_normal h]
  omega

/-- Where the high-order byte of a word is in the normal address mode: the next byte, except that after offset FFFFH it
may be the first byte of the segment (R41). -/
theorem addrHigh_normal {s : State} (h : s.NormalAddresses) (seg off : Word) :
    s.addrHigh seg off =
      (seg.toNat * 16 + if off = 0xFFFF ∧ Config.wordWrapInSegment = true then 0 else off.toNat + 1) % 2 ^ 20 := by
  have hs := seg.isLt
  have ho := off.isLt
  by_cases hf : off = 0xFFFF
  · have hn : off.toNat = 0xFFFF := congrArg BitVec.toNat hf
    cases hw : Config.wordWrapInSegment
    · have hx : ¬ s.xaOn = true := fun e => Bool.noConfusion (h.symm.trans e)
      rw [addrHigh, if_pos (by rw [hw]; simpa using hf), if_neg hx, if_neg (fun e => Bool.noConfusion e.2)]
      simp only [logical, BitVec.toNat_add, BitVec.toNat_mul, BitVec.toNat_setWidth,
        show (16 : BitVec 20).toNat = 16 from rfl, show (1 : BitVec 20).toNat = 1 from rfl]
      omega
    · rw [addrHigh, if_neg (by rw [hw]; simp), if_pos ⟨hf, rfl⟩, addr_normal h, BitVec.toNat_add, hn,
        show (1 : Word).toNat = 1 from rfl]
  · have hn : off.toNat ≠ 0xFFFF := fun e => hf (BitVec.eq_of_toNat_eq e)
    rw [addrHigh, if_neg (fun e => hf (by simp at e; exact e.1)), if_neg fun e => hf e.1, addr_normal h,
      BitVec.toNat_add, show (1 : Word).toNat = 1 from rfl]
    omega

/-- In the normal address mode the two bytes of a word are at different addresses. -/
theorem addrHigh_ne {s : State} (h : s.NormalAddresses) (seg off : Word) : s.addr seg off ≠ s.addrHigh seg off := by
  have hs := seg.isLt
  have ho := off.isLt
  rw [addr_normal h, addrHigh_normal h]
  split
  · next hc =>
    obtain ⟨rfl, -⟩ := hc
    simp
    omega
  · omega

/-- How far a byte of the word at an offset is from the start of the segment, in the normal address mode. -/
theorem operand_distance {s : State} (h : s.NormalAddresses) {seg off : Word} {x : Nat}
    (hx : InOperand s .word seg off x) :
    ∃ d, x = (seg.toNat * 16 + d) % 2 ^ 20 ∧
      (d = off.toNat ∨ d = off.toNat + 1 ∨ d = 0 ∧ off.toNat = 0xFFFF) := by
  rcases hx with rfl | ⟨-, rfl⟩
  · exact ⟨_, addr_normal h _ _, .inl rfl⟩
  · refine ⟨_, addrHigh_normal h _ _, ?_⟩
    split
    · next hc => exact .inr (.inr ⟨rfl, by rw [hc.1]; rfl⟩)
    · exact .inr (.inl rfl)

/-- In the normal address mode two words of a segment whose offsets are neither equal nor next to each other share no
byte. -/
theorem words_apart {s : State} (h : s.NormalAddresses) (seg a b : Word) (h0 : a ≠ b) (h1 : a ≠ b + 1)
    (h2 : b ≠ a + 1) {x : Nat} (hx : InOperand s .word seg a x) : ¬ InOperand s .word seg b x := by
  intro hy
  obtain ⟨d, hd, da⟩ := operand_distance h hx
  obtain ⟨e, he, eb⟩ := operand_distance h hy
  have ha := a.isLt
  have hb := b.isLt
  have n0 : a.toNat ≠ b.toNat := fun e => h0 (BitVec.eq_of_toNat_eq e)
  have n1 : a.toNat ≠ (b.toNat + 1) % 2 ^ 16 := fun e => h1 (BitVec.eq_of_toNat_eq (by simpa using e))
  have n2 : b.toNat ≠ (a.toNat + 1) % 2 ^ 16 := fun e => h2 (BitVec.eq_of_toNat_eq (by simpa using e))
  have : d = e := by
    rw [hd] at he
    generalize seg.toNat * 16 = c at he
    omega
  clear hd he hx hy
  subst this
  rcases da with da | da | da <;> rcases eb with eb | eb | eb <;> omega

/-! ### Bytes of memory -/

/-- A store writes one byte and records it. -/
theorem storeByte_eq (s : State) (a : Nat) (b : Byte) :
    s.storeByte a b = { s with mem := s.mem.write a b, stores := (a, s.pc) :: s.stores } := rfl

theorem storeByte_wf {s : State} (h : s.mem.wf) (a : Nat) (b : Byte) : (s.storeByte a b).mem.wf :=
  Memory.write_wf h a b

/-- `MemWrite` writes memory and records its stores, and nothing else. -/
theorem writeMem_eq (s : State) (w : Width) (seg off : Word) (v : BitVec w.bits) :
    s.writeMem w seg off v =
      { s with mem := (s.writeMem w seg off v).mem, stores := (s.writeMem w seg off v).stores } := by
  cases w <;> rfl

theorem writeMem_wf {s : State} (h : s.mem.wf) (w : Width) (seg off : Word) (v : BitVec w.bits) :
    (s.writeMem w seg off v).mem.wf := by
  cases w
  · exact storeByte_wf h _ _
  · exact storeByte_wf (storeByte_wf h _ _) _ _

/-- `MemWrite` leaves every byte outside its operand. -/
theorem writeMem_only (s : State) (w : Width) (seg off : Word) (v : BitVec w.bits) :
    OnlyStored w seg off s (s.writeMem w seg off v) := by
  intro a ha
  cases w
  · exact Memory.read_write_other _ _ _ _ fun e => ha (.inl e)
  · have h1 : a ≠ s.addr seg off := fun e => ha (.inl e)
    have h2 : a ≠ s.addrHigh seg off := fun e => ha (.inr ⟨rfl, e⟩)
    show Memory.read (Memory.write (Memory.write s.mem _ _) _ _) a = _
    rw [Memory.read_write_other _ _ _ _ h2, Memory.read_write_other _ _ _ _ h1]

/-- `MemWrite` stores its value. -/
theorem writeMem_stored (s : State) (w : Width) (seg off : Word) (v : BitVec w.bits) :
    Stored w seg off v s (s.writeMem w seg off v) := by
  cases w
  · exact Memory.read_write_same _ _ _
  · refine ⟨Memory.read_write_same _ _ _, fun h => ?_⟩
    show Memory.read (Memory.write (Memory.write s.mem _ _) _ _) _ = _
    rw [Memory.read_write_other _ _ _ _ h, Memory.read_write_same]

/-- A word written is read back in the normal address mode (R42). -/
theorem readWord_writeWord {s : State} (h : s.NormalAddresses) (seg off v : Word) :
    (s.writeWord seg off v).readWord seg off = v := by
  obtain ⟨h1, h2⟩ := writeMem_stored s .word seg off v
  have e : s.writeMem .word seg off v = s.writeWord seg off v := rfl
  rw [e] at h1 h2
  show joinBytes (Memory.read _ (s.addr seg off)) (Memory.read _ (s.addrHigh seg off)) = v
  rw [h1, h2 (addrHigh_ne h seg off), joinBytes_halves]

/-- A word reads as before where neither of its bytes has changed. -/
theorem readWord_eq_of_bytes {s t : State} (hc : t.cls = s.cls) (hx : t.xam = s.xam) (seg off : Word)
    (hl : t.mem.read (s.addr seg off) = s.mem.read (s.addr seg off))
    (hh : t.mem.read (s.addrHigh seg off) = s.mem.read (s.addrHigh seg off)) :
    t.readWord seg off = s.readWord seg off := by
  simp only [readWord, addr_congr hc hx, addrHigh_congr hc hx, hl, hh]

/-- A word reads as before where a store into another word of the segment shares no byte with it. -/
theorem readWord_writeWord_other {s : State} (h : s.NormalAddresses) (seg a b v : Word) (h0 : a ≠ b) (h1 : a ≠ b + 1)
    (h2 : b ≠ a + 1) : (s.writeWord seg b v).readWord seg a = s.readWord seg a :=
  readWord_eq_of_bytes (s := s) (t := s.writeWord seg b v) rfl rfl _ _ (writeMem_only s .word seg b v _ (words_apart h seg a b h0 h1 h2 (.inl rfl)))
    (writeMem_only s .word seg b v _ (words_apart h seg a b h0 h1 h2 (.inr ⟨rfl, rfl⟩)))

/-! ### Registers and operands -/

/-- A register write changes that register alone (R7, R8). -/
theorem setReg_writes (s : State) (w : Width) (r : Reg) (v : BitVec w.bits) :
    (s.setReg w r v).reg w r = v ∧ OnlyReg w r s (s.setReg w r v) ∧ RegisterFrame s (s.setReg w r v) ∧
      (s.setReg w r v).psw = s.psw ∧ (s.setReg w r v).draws = s.draws := by
  cases w
  · refine ⟨?_, ⟨?_, ?_⟩, ?_, ?_, ?_⟩
    · cases r <;> simp [setReg, reg, setReg8, reg8]
    · intro q hq
      cases r <;> cases q <;> simp [setReg, setReg8, reg8] at hq ⊢
    · cases r <;> exact ⟨rfl, rfl, rfl, rfl⟩
    all_goals cases r <;> rfl
  · refine ⟨?_, ?_, ?_, ?_, ?_⟩
    · cases r <;> rfl
    · intro q hq
      cases r <;> cases q <;> first | rfl | exact absurd rfl hq
    all_goals cases r <;> rfl

/-- A write to a register-or-memory operand after PSW and the count of undefined values have changed. -/
theorem writeRM_writes (s : State) (f : Psw) (n : Nat) (w : Width) (dst : RM) (v : BitVec w.bits) :
    Writes w dst v s (({ s with psw := f, draws := n } : State).writeRM w dst v) ∧
      (({ s with psw := f, draws := n } : State).writeRM w dst v).psw = f ∧
      (({ s with psw := f, draws := n } : State).writeRM w dst v).draws = n := by
  cases dst with
  | reg r =>
    obtain ⟨h1, h2, h3, h4, h5⟩ := setReg_writes { s with psw := f, draws := n } w r v
    refine ⟨⟨h1, ?_, ?_⟩, h4, h5⟩
    · cases w
      · exact h2
      · exact h2
    · show _ = _
      rw [writeRM, h3]
  | mem m =>
    refine ⟨⟨writeMem_stored { s with psw := f, draws := n } w _ _ v,
      writeMem_only { s with psw := f, draws := n } w _ _ v, ?_⟩, ?_, ?_⟩
    · cases w <;> rfl
    all_goals cases w <;> rfl

theorem writeRM_wf {s : State} (h : s.mem.wf) (w : Width) (dst : RM) (v : BitVec w.bits) :
    (s.writeRM w dst v).mem.wf := by
  cases dst with
  | reg r => cases w <;> cases r <;> exact h
  | mem m => exact writeMem_wf h w _ _ v

/-! ### The stack -/

/-- `push16` writes SP, memory and the record of stores (R290). -/
theorem push16_eq (s : State) (v : Word) :
    s.push16 v = { s with sp := s.sp - 2, mem := (s.push16 v).mem, stores := (s.push16 v).stores } := rfl

/-- The same, with the memory and the record after as any. -/
theorem push16_exists (s : State) (v : Word) :
    ∃ m r, s.push16 v = { s with sp := s.sp - 2, mem := m, stores := r } := ⟨_, _, push16_eq s v⟩

theorem push16_wf {s : State} (h : s.mem.wf) (v : Word) : (s.push16 v).mem.wf := by
  refine writeMem_wf (s := { s with sp := s.sp - 2 }) h .word s.ss (s.sp - 2) v

/-- The offset of the `k`-th word below a stack pointer. -/
theorem stack_offset (sp : Word) (k : Nat) :
    sp - BitVec.ofNat 16 (2 * k) - 2 = sp - BitVec.ofNat 16 (2 * (k + 1)) := by
  apply BitVec.eq_of_toNat_eq
  have := sp.isLt
  simp
  omega

/-- One more word pushed: the words below the old SP read as they did, and the new one stands below them. -/
theorem push16_pushed {s t : State} {words : List Word} (h : Pushed words s t) (hn : words.length < 2 ^ 14)
    (hsp : t.sp = s.sp - BitVec.ofNat 16 (2 * words.length)) (hss : t.ss = s.ss) (hc : t.cls = s.cls)
    (hx : t.xam = s.xam) (v : Word) : Pushed (words ++ [v]) s (t.push16 v) := by
  have hoff : t.sp - 2 = s.sp - BitVec.ofNat 16 (2 * (words.length + 1)) := by rw [hsp, stack_offset]
  obtain ⟨hframe, hread⟩ := h
  have hpush : t.push16 v = ({ t with sp := t.sp - 2 } : State).writeWord s.ss (t.sp - 2) v := by
    show State.writeWord _ t.ss _ _ = _
    rw [hss]
  rw [hpush, hoff]
  generalize hu : ({ t with sp := s.sp - BitVec.ofNat 16 (2 * (words.length + 1)) } : State) = u
  have huc : u.cls = s.cls := by rw [← hu]; exact hc
  have hux : u.xam = s.xam := by rw [← hu]; exact hx
  have hum : u.mem = t.mem := by rw [← hu]
  constructor
  · intro a ha
    have hout := writeMem_only u .word s.ss (s.sp - BitVec.ofNat 16 (2 * (words.length + 1))) v a (by
      intro hin
      refine ha ⟨words.length, by simp, ?_⟩
      simpa only [InOperand, addr_congr huc hux, addrHigh_congr huc hux] using hin)
    refine (hout.trans (by rw [hum])).trans ?_
    exact hframe a fun ⟨k, hk, hin⟩ => ha ⟨k, by simp; omega, hin⟩
  · intro hn' k hk
    have hnu : u.NormalAddresses := by simpa [NormalAddresses, xaOn, huc, hux] using hn'
    by_cases hlast : k = words.length
    · subst hlast
      rw [readWord_writeWord hnu]
      simp
    · have hk' : k < words.length := by simp at hk; omega
      rw [List.getElem_append_left hk', ← hread hn' k hk']
      have hsp := s.sp.isLt
      refine (readWord_writeWord_other hnu s.ss _ _ v ?_ ?_ ?_).trans ?_
      · intro he
        have := congrArg BitVec.toNat he
        simp at this
        omega
      · intro he
        have := congrArg BitVec.toNat he
        simp at this
        omega
      · intro he
        have := congrArg BitVec.toNat he
        simp at this
        omega
      · exact State.readWord_congr (by rw [huc, hc]) (by rw [hux, hx]) hum _ _

/-- Nothing pushed yet. -/
theorem pushed_nil (s : State) {t : State} (h : t.mem = s.mem) : Pushed [] s t := by
  refine ⟨fun a _ => by rw [h], fun _ k hk => absurd hk (by simp)⟩

/-- What `Pushed` says depends on the memory after, the class and XAM alone. -/
theorem pushed_congr {words : List Word} {s t u : State} (h : Pushed words s t) (hm : u.mem = t.mem)
    (hc : u.cls = t.cls) (hx : u.xam = t.xam) : Pushed words s u := by
  refine ⟨fun a ha => by rw [hm]; exact h.1 a ha, fun hn k hk => ?_⟩
  rw [State.readWord_congr hc hx hm]
  exact h.2 hn k hk

/-- One word pushed (R290). -/
theorem push16_one (s : State) (v : Word) : Pushed [v] s (s.push16 v) :=
  push16_pushed (words := []) (pushed_nil s rfl) (by simp) (by simp) rfl rfl rfl v

/-- Three words pushed, with changes between that concern no push. -/
theorem push16_three {s t u : State} (x y z : Word) (htm : t.mem = (s.push16 x).mem) (htc : t.cls = s.cls)
    (htx : t.xam = s.xam) (hts : t.sp = s.sp - 2) (htss : t.ss = s.ss) (hum : u.mem = (t.push16 y).mem)
    (huc : u.cls = s.cls) (hux : u.xam = s.xam) (hus : u.sp = s.sp - 4) (huss : u.ss = s.ss) :
    Pushed [x, y, z] s (u.push16 z) := by
  have h1 : Pushed [x] s t := pushed_congr (push16_one s x) htm htc htx
  have h2 : Pushed [x, y] s u :=
    pushed_congr (push16_pushed h1 (by simp) hts htss htc htx y) hum (huc.trans htc.symm) (hux.trans htx.symm)
  exact push16_pushed h2 (by simp) hus huss huc hux z

/-- Taking an interrupt or break: everything it does (R403). -/
theorem breakSeq_enters (s : State) (n : Byte) (saved : Word) : Enters n saved s (s.breakSeq n saved) := by
  have h4 : s.sp - 2 - 2 = s.sp - 4 := by bv_omega
  have h6 : s.sp - 2 - 2 - 2 = s.sp - 6 := by bv_omega
  have e : s.breakSeq n saved =
      (({ (s.push16 s.pswWord).maskInterrupts.push16 s.ps with ps := s.vectorSegment n } : State).push16 saved).jump
        (s.vectorOffset n) := rfl
  refine ⟨?_, ?_⟩
  · rw [e]
    obtain ⟨m, r, h⟩ := push16_exists s s.pswWord
    rw [h]
    obtain ⟨m, r, h⟩ := push16_exists
      ({ s with sp := s.sp - 2, mem := m, stores := r } : State).maskInterrupts s.ps
    rw [h]
    obtain ⟨m, r, h⟩ := push16_exists
      ({ s with
        sp := s.sp - 2 - 2, mem := m, stores := r, ps := s.vectorSegment n
        psw := { s.psw with ie := false, brk := false } } : State) saved
    have h' := h
    simp only at h'
    simp only [maskInterrupts]
    rw [h', ← h6]
    rfl
  · rw [e]
    generalize hp : s.push16 s.pswWord = p
    have hpc : p.cls = s.cls := by rw [← hp]; rfl
    have hpx : p.xam = s.xam := by rw [← hp]; rfl
    have hps : p.sp = s.sp - 2 := by rw [← hp]; rfl
    have hpss : p.ss = s.ss := by rw [← hp]; rfl
    generalize hq : p.maskInterrupts.push16 s.ps = q
    have hqc : q.cls = s.cls := by rw [← hq]; exact hpc
    have hqx : q.xam = s.xam := by rw [← hq]; exact hpx
    have hqs : q.sp = s.sp - 4 := by rw [← hq, ← h4, ← hps]; rfl
    have hqss : q.ss = s.ss := by rw [← hq]; exact hpss
    refine pushed_congr (push16_three (t := p.maskInterrupts) (u := { q with ps := s.vectorSegment n })
      s.pswWord s.ps saved (by rw [hp]; rfl) hpc hpx hps hpss (by rw [hq]) hqc hqx hqs hqss) ?_ ?_ ?_
    · rw [jump_mem]
    · rw [jump_cls]
    · rw [jump_xam]

/-- The pops of a return: PC, PS and the PSW word, and SP past them (R355, R383). -/
theorem returnSeq_eq (s : State) (load : State → Word → State) :
    s.returnSeq load =
      (load { s with sp := s.sp + 6, ps := s.readWord s.ss (s.sp + 2) } (s.readWord s.ss (s.sp + 4))).jump
        (s.readWord s.ss s.sp) := by
  have h4 : s.sp + 2 + 2 = s.sp + 4 := by bv_omega
  have h6 : s.sp + 2 + 2 + 2 = s.sp + 6 := by bv_omega
  rw [← h6, ← h4]
  rfl

end Sys2Proof.Machine.State
end

