-- ==== Sys2Proof/Laws/Effects.lean ====
section
/-! SUPPORT. The fields that the stores, the pushes and the entry of a vector leave as they were, and the value of the
others that a lemma of its own does not give. -/

namespace Sys2Proof.Machine.State

variable (s : State)

/-! ### `writeByte` -/

@[simp] theorem writeByte_cls (g o : Word) (v : Byte) : (s.writeByte g o v).cls = s.cls := rfl
@[simp] theorem writeByte_aw (g o : Word) (v : Byte) : (s.writeByte g o v).aw = s.aw := rfl
@[simp] theorem writeByte_cw (g o : Word) (v : Byte) : (s.writeByte g o v).cw = s.cw := rfl
@[simp] theorem writeByte_dw (g o : Word) (v : Byte) : (s.writeByte g o v).dw = s.dw := rfl
@[simp] theorem writeByte_bw (g o : Word) (v : Byte) : (s.writeByte g o v).bw = s.bw := rfl
@[simp] theorem writeByte_sp (g o : Word) (v : Byte) : (s.writeByte g o v).sp = s.sp := rfl
@[simp] theorem writeByte_bp (g o : Word) (v : Byte) : (s.writeByte g o v).bp = s.bp := rfl
@[simp] theorem writeByte_ix (g o : Word) (v : Byte) : (s.writeByte g o v).ix = s.ix := rfl
@[simp] theorem writeByte_iy (g o : Word) (v : Byte) : (s.writeByte g o v).iy = s.iy := rfl
@[simp] theorem writeByte_ds1 (g o : Word) (v : Byte) : (s.writeByte g o v).ds1 = s.ds1 := rfl
@[simp] theorem writeByte_ps (g o : Word) (v : Byte) : (s.writeByte g o v).ps = s.ps := rfl
@[simp] theorem writeByte_ss (g o : Word) (v : Byte) : (s.writeByte g o v).ss = s.ss := rfl
@[simp] theorem writeByte_ds0 (g o : Word) (v : Byte) : (s.writeByte g o v).ds0 = s.ds0 := rfl
@[simp] theorem writeByte_pc (g o : Word) (v : Byte) : (s.writeByte g o v).pc = s.pc := rfl
@[simp] theorem writeByte_psw (g o : Word) (v : Byte) : (s.writeByte g o v).psw = s.psw := rfl
@[simp] theorem writeByte_mdwe (g o : Word) (v : Byte) : (s.writeByte g o v).mdwe = s.mdwe := rfl
@[simp] theorem writeByte_xam (g o : Word) (v : Byte) : (s.writeByte g o v).xam = s.xam := rfl
@[simp] theorem writeByte_inhibit (g o : Word) (v : Byte) : (s.writeByte g o v).inhibit = s.inhibit := rfl
@[simp] theorem writeByte_halted (g o : Word) (v : Byte) : (s.writeByte g o v).halted = s.halted := rfl
@[simp] theorem writeByte_prefixes (g o : Word) (v : Byte) : (s.writeByte g o v).prefixes = s.prefixes := rfl
@[simp] theorem writeByte_start (g o : Word) (v : Byte) : (s.writeByte g o v).start = s.start := rfl
@[simp] theorem writeByte_window (g o : Word) (v : Byte) : (s.writeByte g o v).window = s.window := rfl
@[simp] theorem writeByte_inProgress (g o : Word) (v : Byte) : (s.writeByte g o v).inProgress = s.inProgress := rfl
@[simp] theorem writeByte_breakDue (g o : Word) (v : Byte) : (s.writeByte g o v).breakDue = s.breakDue := rfl
@[simp] theorem writeByte_nmi (g o : Word) (v : Byte) : (s.writeByte g o v).nmi = s.nmi := rfl
@[simp] theorem writeByte_int (g o : Word) (v : Byte) : (s.writeByte g o v).int = s.int := rfl
@[simp] theorem writeByte_nmiVector (g o : Word) (v : Byte) : (s.writeByte g o v).nmiVector = s.nmiVector := rfl
@[simp] theorem writeByte_pollActive (g o : Word) (v : Byte) : (s.writeByte g o v).pollActive = s.pollActive := rfl
@[simp] theorem writeByte_ioIn (g o : Word) (v : Byte) : (s.writeByte g o v).ioIn = s.ioIn := rfl
@[simp] theorem writeByte_ioOut (g o : Word) (v : Byte) : (s.writeByte g o v).ioOut = s.ioOut := rfl
@[simp] theorem writeByte_draws (g o : Word) (v : Byte) : (s.writeByte g o v).draws = s.draws := rfl

/-! ### `writeWord` -/

@[simp] theorem writeWord_cls (g o v : Word) : (s.writeWord g o v).cls = s.cls := rfl
@[simp] theorem writeWord_aw (g o v : Word) : (s.writeWord g o v).aw = s.aw := rfl
@[simp] theorem writeWord_cw (g o v : Word) : (s.writeWord g o v).cw = s.cw := rfl
@[simp] theorem writeWord_dw (g o v : Word) : (s.writeWord g o v).dw = s.dw := rfl
@[simp] theorem writeWord_bw (g o v : Word) : (s.writeWord g o v).bw = s.bw := rfl
@[simp] theorem writeWord_sp (g o v : Word) : (s.writeWord g o v).sp = s.sp := rfl
@[simp] theorem writeWord_bp (g o v : Word) : (s.writeWord g o v).bp = s.bp := rfl
@[simp] theorem writeWord_ix (g o v : Word) : (s.writeWord g o v).ix = s.ix := rfl
@[simp] theorem writeWord_iy (g o v : Word) : (s.writeWord g o v).iy = s.iy := rfl
@[simp] theorem writeWord_ds1 (g o v : Word) : (s.writeWord g o v).ds1 = s.ds1 := rfl
@[simp] theorem writeWord_ps (g o v : Word) : (s.writeWord g o v).ps = s.ps := rfl
@[simp] theorem writeWord_ss (g o v : Word) : (s.writeWord g o v).ss = s.ss := rfl
@[simp] theorem writeWord_ds0 (g o v : Word) : (s.writeWord g o v).ds0 = s.ds0 := rfl
@[simp] theorem writeWord_pc (g o v : Word) : (s.writeWord g o v).pc = s.pc := rfl
@[simp] theorem writeWord_psw (g o v : Word) : (s.writeWord g o v).psw = s.psw := rfl
@[simp] theorem writeWord_mdwe (g o v : Word) : (s.writeWord g o v).mdwe = s.mdwe := rfl
@[simp] theorem writeWord_xam (g o v : Word) : (s.writeWord g o v).xam = s.xam := rfl
@[simp] theorem writeWord_inhibit (g o v : Word) : (s.writeWord g o v).inhibit = s.inhibit := rfl
@[simp] theorem writeWord_halted (g o v : Word) : (s.writeWord g o v).halted = s.halted := rfl
@[simp] theorem writeWord_prefixes (g o v : Word) : (s.writeWord g o v).prefixes = s.prefixes := rfl
@[simp] theorem writeWord_start (g o v : Word) : (s.writeWord g o v).start = s.start := rfl
@[simp] theorem writeWord_window (g o v : Word) : (s.writeWord g o v).window = s.window := rfl
@[simp] theorem writeWord_inProgress (g o v : Word) : (s.writeWord g o v).inProgress = s.inProgress := rfl
@[simp] theorem writeWord_breakDue (g o v : Word) : (s.writeWord g o v).breakDue = s.breakDue := rfl
@[simp] theorem writeWord_nmi (g o v : Word) : (s.writeWord g o v).nmi = s.nmi := rfl
@[simp] theorem writeWord_int (g o v : Word) : (s.writeWord g o v).int = s.int := rfl
@[simp] theorem writeWord_nmiVector (g o v : Word) : (s.writeWord g o v).nmiVector = s.nmiVector := rfl
@[simp] theorem writeWord_pollActive (g o v : Word) : (s.writeWord g o v).pollActive = s.pollActive := rfl
@[simp] theorem writeWord_ioIn (g o v : Word) : (s.writeWord g o v).ioIn = s.ioIn := rfl
@[simp] theorem writeWord_ioOut (g o v : Word) : (s.writeWord g o v).ioOut = s.ioOut := rfl
@[simp] theorem writeWord_draws (g o v : Word) : (s.writeWord g o v).draws = s.draws := rfl

/-! ### `writeMem` -/

@[simp] theorem writeMem_cls (w : Width) (g o : Word) (v : BitVec w.bits) : (s.writeMem w g o v).cls = s.cls := by
  cases w <;> rfl
@[simp] theorem writeMem_aw (w : Width) (g o : Word) (v : BitVec w.bits) : (s.writeMem w g o v).aw = s.aw := by
  cases w <;> rfl
@[simp] theorem writeMem_cw (w : Width) (g o : Word) (v : BitVec w.bits) : (s.writeMem w g o v).cw = s.cw := by
  cases w <;> rfl
@[simp] theorem writeMem_dw (w : Width) (g o : Word) (v : BitVec w.bits) : (s.writeMem w g o v).dw = s.dw := by
  cases w <;> rfl
@[simp] theorem writeMem_bw (w : Width) (g o : Word) (v : BitVec w.bits) : (s.writeMem w g o v).bw = s.bw := by
  cases w <;> rfl
@[simp] theorem writeMem_sp (w : Width) (g o : Word) (v : BitVec w.bits) : (s.writeMem w g o v).sp = s.sp := by
  cases w <;> rfl
@[simp] theorem writeMem_bp (w : Width) (g o : Word) (v : BitVec w.bits) : (s.writeMem w g o v).bp = s.bp := by
  cases w <;> rfl
@[simp] theorem writeMem_ix (w : Width) (g o : Word) (v : BitVec w.bits) : (s.writeMem w g o v).ix = s.ix := by
  cases w <;> rfl
@[simp] theorem writeMem_iy (w : Width) (g o : Word) (v : BitVec w.bits) : (s.writeMem w g o v).iy = s.iy := by
  cases w <;> rfl
@[simp] theorem writeMem_ds1 (w : Width) (g o : Word) (v : BitVec w.bits) : (s.writeMem w g o v).ds1 = s.ds1 := by
  cases w <;> rfl
@[simp] theorem writeMem_ps (w : Width) (g o : Word) (v : BitVec w.bits) : (s.writeMem w g o v).ps = s.ps := by
  cases w <;> rfl
@[simp] theorem writeMem_ss (w : Width) (g o : Word) (v : BitVec w.bits) : (s.writeMem w g o v).ss = s.ss := by
  cases w <;> rfl
@[simp] theorem writeMem_ds0 (w : Width) (g o : Word) (v : BitVec w.bits) : (s.writeMem w g o v).ds0 = s.ds0 := by
  cases w <;> rfl
@[simp] theorem writeMem_pc (w : Width) (g o : Word) (v : BitVec w.bits) : (s.writeMem w g o v).pc = s.pc := by
  cases w <;> rfl
@[simp] theorem writeMem_psw (w : Width) (g o : Word) (v : BitVec w.bits) : (s.writeMem w g o v).psw = s.psw := by
  cases w <;> rfl
@[simp] theorem writeMem_mdwe (w : Width) (g o : Word) (v : BitVec w.bits) : (s.writeMem w g o v).mdwe = s.mdwe := by
  cases w <;> rfl
@[simp] theorem writeMem_xam (w : Width) (g o : Word) (v : BitVec w.bits) : (s.writeMem w g o v).xam = s.xam := by
  cases w <;> rfl
@[simp] theorem writeMem_inhibit (w : Width) (g o : Word) (v : BitVec w.bits) : (s.writeMem w g o v).inhibit = s.inhibit := by
  cases w <;> rfl
@[simp] theorem writeMem_halted (w : Width) (g o : Word) (v : BitVec w.bits) : (s.writeMem w g o v).halted = s.halted := by
  cases w <;> rfl
@[simp] theorem writeMem_prefixes (w : Width) (g o : Word) (v : BitVec w.bits) : (s.writeMem w g o v).prefixes = s.prefixes := by
  cases w <;> rfl
@[simp] theorem writeMem_start (w : Width) (g o : Word) (v : BitVec w.bits) : (s.writeMem w g o v).start = s.start := by
  cases w <;> rfl
@[simp] theorem writeMem_window (w : Width) (g o : Word) (v : BitVec w.bits) : (s.writeMem w g o v).window = s.window := by
  cases w <;> rfl
@[simp] theorem writeMem_inProgress (w : Width) (g o : Word) (v : BitVec w.bits) : (s.writeMem w g o v).inProgress = s.inProgress := by
  cases w <;> rfl
@[simp] theorem writeMem_breakDue (w : Width) (g o : Word) (v : BitVec w.bits) : (s.writeMem w g o v).breakDue = s.breakDue := by
  cases w <;> rfl
@[simp] theorem writeMem_nmi (w : Width) (g o : Word) (v : BitVec w.bits) : (s.writeMem w g o v).nmi = s.nmi := by
  cases w <;> rfl
@[simp] theorem writeMem_int (w : Width) (g o : Word) (v : BitVec w.bits) : (s.writeMem w g o v).int = s.int := by
  cases w <;> rfl
@[simp] theorem writeMem_nmiVector (w : Width) (g o : Word) (v : BitVec w.bits) : (s.writeMem w g o v).nmiVector = s.nmiVector := by
  cases w <;> rfl
@[simp] theorem writeMem_pollActive (w : Width) (g o : Word) (v : BitVec w.bits) : (s.writeMem w g o v).pollActive = s.pollActive := by
  cases w <;> rfl
@[simp] theorem writeMem_ioIn (w : Width) (g o : Word) (v : BitVec w.bits) : (s.writeMem w g o v).ioIn = s.ioIn := by
  cases w <;> rfl
@[simp] theorem writeMem_ioOut (w : Width) (g o : Word) (v : BitVec w.bits) : (s.writeMem w g o v).ioOut = s.ioOut := by
  cases w <;> rfl
@[simp] theorem writeMem_draws (w : Width) (g o : Word) (v : BitVec w.bits) : (s.writeMem w g o v).draws = s.draws := by
  cases w <;> rfl

/-! ### `writeEA` -/

@[simp] theorem writeEA_cls (w : Width) (m : MemArg) (v : BitVec w.bits) : (s.writeEA w m v).cls = s.cls := by
  cases w <;> rfl
@[simp] theorem writeEA_aw (w : Width) (m : MemArg) (v : BitVec w.bits) : (s.writeEA w m v).aw = s.aw := by
  cases w <;> rfl
@[simp] theorem writeEA_cw (w : Width) (m : MemArg) (v : BitVec w.bits) : (s.writeEA w m v).cw = s.cw := by
  cases w <;> rfl
@[simp] theorem writeEA_dw (w : Width) (m : MemArg) (v : BitVec w.bits) : (s.writeEA w m v).dw = s.dw := by
  cases w <;> rfl
@[simp] theorem writeEA_bw (w : Width) (m : MemArg) (v : BitVec w.bits) : (s.writeEA w m v).bw = s.bw := by
  cases w <;> rfl
@[simp] theorem writeEA_sp (w : Width) (m : MemArg) (v : BitVec w.bits) : (s.writeEA w m v).sp = s.sp := by
  cases w <;> rfl
@[simp] theorem writeEA_bp (w : Width) (m : MemArg) (v : BitVec w.bits) : (s.writeEA w m v).bp = s.bp := by
  cases w <;> rfl
@[simp] theorem writeEA_ix (w : Width) (m : MemArg) (v : BitVec w.bits) : (s.writeEA w m v).ix = s.ix := by
  cases w <;> rfl
@[simp] theorem writeEA_iy (w : Width) (m : MemArg) (v : BitVec w.bits) : (s.writeEA w m v).iy = s.iy := by
  cases w <;> rfl
@[simp] theorem writeEA_ds1 (w : Width) (m : MemArg) (v : BitVec w.bits) : (s.writeEA w m v).ds1 = s.ds1 := by
  cases w <;> rfl
@[simp] theorem writeEA_ps (w : Width) (m : MemArg) (v : BitVec w.bits) : (s.writeEA w m v).ps = s.ps := by
  cases w <;> rfl
@[simp] theorem writeEA_ss (w : Width) (m : MemArg) (v : BitVec w.bits) : (s.writeEA w m v).ss = s.ss := by
  cases w <;> rfl
@[simp] theorem writeEA_ds0 (w : Width) (m : MemArg) (v : BitVec w.bits) : (s.writeEA w m v).ds0 = s.ds0 := by
  cases w <;> rfl
@[simp] theorem writeEA_pc (w : Width) (m : MemArg) (v : BitVec w.bits) : (s.writeEA w m v).pc = s.pc := by
  cases w <;> rfl
@[simp] theorem writeEA_psw (w : Width) (m : MemArg) (v : BitVec w.bits) : (s.writeEA w m v).psw = s.psw := by
  cases w <;> rfl
@[simp] theorem writeEA_mdwe (w : Width) (m : MemArg) (v : BitVec w.bits) : (s.writeEA w m v).mdwe = s.mdwe := by
  cases w <;> rfl
@[simp] theorem writeEA_xam (w : Width) (m : MemArg) (v : BitVec w.bits) : (s.writeEA w m v).xam = s.xam := by
  cases w <;> rfl
@[simp] theorem writeEA_inhibit (w : Width) (m : MemArg) (v : BitVec w.bits) : (s.writeEA w m v).inhibit = s.inhibit := by
  cases w <;> rfl
@[simp] theorem writeEA_halted (w : Width) (m : MemArg) (v : BitVec w.bits) : (s.writeEA w m v).halted = s.halted := by
  cases w <;> rfl
@[simp] theorem writeEA_prefixes (w : Width) (m : MemArg) (v : BitVec w.bits) : (s.writeEA w m v).prefixes = s.prefixes := by
  cases w <;> rfl
@[simp] theorem writeEA_start (w : Width) (m : MemArg) (v : BitVec w.bits) : (s.writeEA w m v).start = s.start := by
  cases w <;> rfl
@[simp] theorem writeEA_window (w : Width) (m : MemArg) (v : BitVec w.bits) : (s.writeEA w m v).window = s.window := by
  cases w <;> rfl
@[simp] theorem writeEA_inProgress (w : Width) (m : MemArg) (v : BitVec w.bits) : (s.writeEA w m v).inProgress = s.inProgress := by
  cases w <;> rfl
@[simp] theorem writeEA_breakDue (w : Width) (m : MemArg) (v : BitVec w.bits) : (s.writeEA w m v).breakDue = s.breakDue := by
  cases w <;> rfl
@[simp] theorem writeEA_nmi (w : Width) (m : MemArg) (v : BitVec w.bits) : (s.writeEA w m v).nmi = s.nmi := by
  cases w <;> rfl
@[simp] theorem writeEA_int (w : Width) (m : MemArg) (v : BitVec w.bits) : (s.writeEA w m v).int = s.int := by
  cases w <;> rfl
@[simp] theorem writeEA_nmiVector (w : Width) (m : MemArg) (v : BitVec w.bits) : (s.writeEA w m v).nmiVector = s.nmiVector := by
  cases w <;> rfl
@[simp] theorem writeEA_pollActive (w : Width) (m : MemArg) (v : BitVec w.bits) : (s.writeEA w m v).pollActive = s.pollActive := by
  cases w <;> rfl
@[simp] theorem writeEA_ioIn (w : Width) (m : MemArg) (v : BitVec w.bits) : (s.writeEA w m v).ioIn = s.ioIn := by
  cases w <;> rfl
@[simp] theorem writeEA_ioOut (w : Width) (m : MemArg) (v : BitVec w.bits) : (s.writeEA w m v).ioOut = s.ioOut := by
  cases w <;> rfl
@[simp] theorem writeEA_draws (w : Width) (m : MemArg) (v : BitVec w.bits) : (s.writeEA w m v).draws = s.draws := by
  cases w <;> rfl

/-! ### `writeRM` -/

@[simp] theorem writeRM_cls (w : Width) (d : RM) (v : BitVec w.bits) : (s.writeRM w d v).cls = s.cls := by
  cases d with
  | reg r => exact setReg_cls s w r v
  | mem m => exact writeEA_cls s w m v
@[simp] theorem writeRM_ds1 (w : Width) (d : RM) (v : BitVec w.bits) : (s.writeRM w d v).ds1 = s.ds1 := by
  cases d with
  | reg r => exact setReg_ds1 s w r v
  | mem m => exact writeEA_ds1 s w m v
@[simp] theorem writeRM_ps (w : Width) (d : RM) (v : BitVec w.bits) : (s.writeRM w d v).ps = s.ps := by
  cases d with
  | reg r => exact setReg_ps s w r v
  | mem m => exact writeEA_ps s w m v
@[simp] theorem writeRM_ss (w : Width) (d : RM) (v : BitVec w.bits) : (s.writeRM w d v).ss = s.ss := by
  cases d with
  | reg r => exact setReg_ss s w r v
  | mem m => exact writeEA_ss s w m v
@[simp] theorem writeRM_ds0 (w : Width) (d : RM) (v : BitVec w.bits) : (s.writeRM w d v).ds0 = s.ds0 := by
  cases d with
  | reg r => exact setReg_ds0 s w r v
  | mem m => exact writeEA_ds0 s w m v
@[simp] theorem writeRM_pc (w : Width) (d : RM) (v : BitVec w.bits) : (s.writeRM w d v).pc = s.pc := by
  cases d with
  | reg r => exact setReg_pc s w r v
  | mem m => exact writeEA_pc s w m v
@[simp] theorem writeRM_psw (w : Width) (d : RM) (v : BitVec w.bits) : (s.writeRM w d v).psw = s.psw := by
  cases d with
  | reg r => exact setReg_psw s w r v
  | mem m => exact writeEA_psw s w m v
@[simp] theorem writeRM_mdwe (w : Width) (d : RM) (v : BitVec w.bits) : (s.writeRM w d v).mdwe = s.mdwe := by
  cases d with
  | reg r => exact setReg_mdwe s w r v
  | mem m => exact writeEA_mdwe s w m v
@[simp] theorem writeRM_xam (w : Width) (d : RM) (v : BitVec w.bits) : (s.writeRM w d v).xam = s.xam := by
  cases d with
  | reg r => exact setReg_xam s w r v
  | mem m => exact writeEA_xam s w m v
@[simp] theorem writeRM_inhibit (w : Width) (d : RM) (v : BitVec w.bits) : (s.writeRM w d v).inhibit = s.inhibit := by
  cases d with
  | reg r => exact setReg_inhibit s w r v
  | mem m => exact writeEA_inhibit s w m v
@[simp] theorem writeRM_halted (w : Width) (d : RM) (v : BitVec w.bits) : (s.writeRM w d v).halted = s.halted := by
  cases d with
  | reg r => exact setReg_halted s w r v
  | mem m => exact writeEA_halted s w m v
@[simp] theorem writeRM_prefixes (w : Width) (d : RM) (v : BitVec w.bits) : (s.writeRM w d v).prefixes = s.prefixes := by
  cases d with
  | reg r => exact setReg_prefixes s w r v
  | mem m => exact writeEA_prefixes s w m v
@[simp] theorem writeRM_start (w : Width) (d : RM) (v : BitVec w.bits) : (s.writeRM w d v).start = s.start := by
  cases d with
  | reg r => exact setReg_start s w r v
  | mem m => exact writeEA_start s w m v
@[simp] theorem writeRM_window (w : Width) (d : RM) (v : BitVec w.bits) : (s.writeRM w d v).window = s.window := by
  cases d with
  | reg r => exact setReg_window s w r v
  | mem m => exact writeEA_window s w m v
@[simp] theorem writeRM_inProgress (w : Width) (d : RM) (v : BitVec w.bits) : (s.writeRM w d v).inProgress = s.inProgress := by
  cases d with
  | reg r => exact setReg_inProgress s w r v
  | mem m => exact writeEA_inProgress s w m v
@[simp] theorem writeRM_breakDue (w : Width) (d : RM) (v : BitVec w.bits) : (s.writeRM w d v).breakDue = s.breakDue := by
  cases d with
  | reg r => exact setReg_breakDue s w r v
  | mem m => exact writeEA_breakDue s w m v
@[simp] theorem writeRM_nmi (w : Width) (d : RM) (v : BitVec w.bits) : (s.writeRM w d v).nmi = s.nmi := by
  cases d with
  | reg r => exact setReg_nmi s w r v
  | mem m => exact writeEA_nmi s w m v
@[simp] theorem writeRM_int (w : Width) (d : RM) (v : BitVec w.bits) : (s.writeRM w d v).int = s.int := by
  cases d with
  | reg r => exact setReg_int s w r v
  | mem m => exact writeEA_int s w m v
@[simp] theorem writeRM_nmiVector (w : Width) (d : RM) (v : BitVec w.bits) : (s.writeRM w d v).nmiVector = s.nmiVector := by
  cases d with
  | reg r => exact setReg_nmiVector s w r v
  | mem m => exact writeEA_nmiVector s w m v
@[simp] theorem writeRM_pollActive (w : Width) (d : RM) (v : BitVec w.bits) : (s.writeRM w d v).pollActive = s.pollActive := by
  cases d with
  | reg r => exact setReg_pollActive s w r v
  | mem m => exact writeEA_pollActive s w m v
@[simp] theorem writeRM_ioIn (w : Width) (d : RM) (v : BitVec w.bits) : (s.writeRM w d v).ioIn = s.ioIn := by
  cases d with
  | reg r => exact setReg_ioIn s w r v
  | mem m => exact writeEA_ioIn s w m v
@[simp] theorem writeRM_ioOut (w : Width) (d : RM) (v : BitVec w.bits) : (s.writeRM w d v).ioOut = s.ioOut := by
  cases d with
  | reg r => exact setReg_ioOut s w r v
  | mem m => exact writeEA_ioOut s w m v
@[simp] theorem writeRM_draws (w : Width) (d : RM) (v : BitVec w.bits) : (s.writeRM w d v).draws = s.draws := by
  cases d with
  | reg r => exact setReg_draws s w r v
  | mem m => exact writeEA_draws s w m v

/-! ### `push16` -/

@[simp] theorem push16_cls (v : Word) : (s.push16 v).cls = s.cls := rfl
@[simp] theorem push16_aw (v : Word) : (s.push16 v).aw = s.aw := rfl
@[simp] theorem push16_cw (v : Word) : (s.push16 v).cw = s.cw := rfl
@[simp] theorem push16_dw (v : Word) : (s.push16 v).dw = s.dw := rfl
@[simp] theorem push16_bw (v : Word) : (s.push16 v).bw = s.bw := rfl
@[simp] theorem push16_sp (v : Word) : (s.push16 v).sp = s.sp - 2 := rfl
@[simp] theorem push16_bp (v : Word) : (s.push16 v).bp = s.bp := rfl
@[simp] theorem push16_ix (v : Word) : (s.push16 v).ix = s.ix := rfl
@[simp] theorem push16_iy (v : Word) : (s.push16 v).iy = s.iy := rfl
@[simp] theorem push16_ds1 (v : Word) : (s.push16 v).ds1 = s.ds1 := rfl
@[simp] theorem push16_ps (v : Word) : (s.push16 v).ps = s.ps := rfl
@[simp] theorem push16_ss (v : Word) : (s.push16 v).ss = s.ss := rfl
@[simp] theorem push16_ds0 (v : Word) : (s.push16 v).ds0 = s.ds0 := rfl
@[simp] theorem push16_pc (v : Word) : (s.push16 v).pc = s.pc := rfl
@[simp] theorem push16_psw (v : Word) : (s.push16 v).psw = s.psw := rfl
@[simp] theorem push16_mdwe (v : Word) : (s.push16 v).mdwe = s.mdwe := rfl
@[simp] theorem push16_xam (v : Word) : (s.push16 v).xam = s.xam := rfl
@[simp] theorem push16_inhibit (v : Word) : (s.push16 v).inhibit = s.inhibit := rfl
@[simp] theorem push16_halted (v : Word) : (s.push16 v).halted = s.halted := rfl
@[simp] theorem push16_prefixes (v : Word) : (s.push16 v).prefixes = s.prefixes := rfl
@[simp] theorem push16_start (v : Word) : (s.push16 v).start = s.start := rfl
@[simp] theorem push16_window (v : Word) : (s.push16 v).window = s.window := rfl
@[simp] theorem push16_inProgress (v : Word) : (s.push16 v).inProgress = s.inProgress := rfl
@[simp] theorem push16_breakDue (v : Word) : (s.push16 v).breakDue = s.breakDue := rfl
@[simp] theorem push16_nmi (v : Word) : (s.push16 v).nmi = s.nmi := rfl
@[simp] theorem push16_int (v : Word) : (s.push16 v).int = s.int := rfl
@[simp] theorem push16_nmiVector (v : Word) : (s.push16 v).nmiVector = s.nmiVector := rfl
@[simp] theorem push16_pollActive (v : Word) : (s.push16 v).pollActive = s.pollActive := rfl
@[simp] theorem push16_ioIn (v : Word) : (s.push16 v).ioIn = s.ioIn := rfl
@[simp] theorem push16_ioOut (v : Word) : (s.push16 v).ioOut = s.ioOut := rfl
@[simp] theorem push16_draws (v : Word) : (s.push16 v).draws = s.draws := rfl

/-- What the entry of a vector writes besides memory. -/
theorem breakSeq_exists (n : Byte) (p : Word) :
    ∃ m, s.breakSeq n p = { s with
      ps := s.vectorSegment n, pc := s.vectorOffset n, sp := s.sp - 6
      psw := { s.psw with ie := false, brk := false }, stores := [], mem := m } :=
  ⟨_, (breakSeq_enters s n p).1⟩

/-! ### `breakSeq` -/

@[simp] theorem breakSeq_cls (n : Byte) (p : Word) : (s.breakSeq n p).cls = s.cls := by
  obtain ⟨m, h⟩ := breakSeq_exists s n p
  rw [h]
@[simp] theorem breakSeq_aw (n : Byte) (p : Word) : (s.breakSeq n p).aw = s.aw := by
  obtain ⟨m, h⟩ := breakSeq_exists s n p
  rw [h]
@[simp] theorem breakSeq_cw (n : Byte) (p : Word) : (s.breakSeq n p).cw = s.cw := by
  obtain ⟨m, h⟩ := breakSeq_exists s n p
  rw [h]
@[simp] theorem breakSeq_dw (n : Byte) (p : Word) : (s.breakSeq n p).dw = s.dw := by
  obtain ⟨m, h⟩ := breakSeq_exists s n p
  rw [h]
@[simp] theorem breakSeq_bw (n : Byte) (p : Word) : (s.breakSeq n p).bw = s.bw := by
  obtain ⟨m, h⟩ := breakSeq_exists s n p
  rw [h]
@[simp] theorem breakSeq_sp (n : Byte) (p : Word) : (s.breakSeq n p).sp = s.sp - 6 := by
  obtain ⟨m, h⟩ := breakSeq_exists s n p
  rw [h]
@[simp] theorem breakSeq_bp (n : Byte) (p : Word) : (s.breakSeq n p).bp = s.bp := by
  obtain ⟨m, h⟩ := breakSeq_exists s n p
  rw [h]
@[simp] theorem breakSeq_ix (n : Byte) (p : Word) : (s.breakSeq n p).ix = s.ix := by
  obtain ⟨m, h⟩ := breakSeq_exists s n p
  rw [h]
@[simp] theorem breakSeq_iy (n : Byte) (p : Word) : (s.breakSeq n p).iy = s.iy := by
  obtain ⟨m, h⟩ := breakSeq_exists s n p
  rw [h]
@[simp] theorem breakSeq_ds1 (n : Byte) (p : Word) : (s.breakSeq n p).ds1 = s.ds1 := by
  obtain ⟨m, h⟩ := breakSeq_exists s n p
  rw [h]
@[simp] theorem breakSeq_ps (n : Byte) (p : Word) : (s.breakSeq n p).ps = s.vectorSegment n := by
  obtain ⟨m, h⟩ := breakSeq_exists s n p
  rw [h]
@[simp] theorem breakSeq_ss (n : Byte) (p : Word) : (s.breakSeq n p).ss = s.ss := by
  obtain ⟨m, h⟩ := breakSeq_exists s n p
  rw [h]
@[simp] theorem breakSeq_ds0 (n : Byte) (p : Word) : (s.breakSeq n p).ds0 = s.ds0 := by
  obtain ⟨m, h⟩ := breakSeq_exists s n p
  rw [h]
@[simp] theorem breakSeq_pc (n : Byte) (p : Word) : (s.breakSeq n p).pc = s.vectorOffset n := by
  obtain ⟨m, h⟩ := breakSeq_exists s n p
  rw [h]
@[simp] theorem breakSeq_psw (n : Byte) (p : Word) : (s.breakSeq n p).psw = { s.psw with ie := false, brk := false } := by
  obtain ⟨m, h⟩ := breakSeq_exists s n p
  rw [h]
@[simp] theorem breakSeq_mdwe (n : Byte) (p : Word) : (s.breakSeq n p).mdwe = s.mdwe := by
  obtain ⟨m, h⟩ := breakSeq_exists s n p
  rw [h]
@[simp] theorem breakSeq_xam (n : Byte) (p : Word) : (s.breakSeq n p).xam = s.xam := by
  obtain ⟨m, h⟩ := breakSeq_exists s n p
  rw [h]
@[simp] theorem breakSeq_inhibit (n : Byte) (p : Word) : (s.breakSeq n p).inhibit = s.inhibit := by
  obtain ⟨m, h⟩ := breakSeq_exists s n p
  rw [h]
@[simp] theorem breakSeq_halted (n : Byte) (p : Word) : (s.breakSeq n p).halted = s.halted := by
  obtain ⟨m, h⟩ := breakSeq_exists s n p
  rw [h]
@[simp] theorem breakSeq_prefixes (n : Byte) (p : Word) : (s.breakSeq n p).prefixes = s.prefixes := by
  obtain ⟨m, h⟩ := breakSeq_exists s n p
  rw [h]
@[simp] theorem breakSeq_start (n : Byte) (p : Word) : (s.breakSeq n p).start = s.start := by
  obtain ⟨m, h⟩ := breakSeq_exists s n p
  rw [h]
@[simp] theorem breakSeq_window (n : Byte) (p : Word) : (s.breakSeq n p).window = s.window := by
  obtain ⟨m, h⟩ := breakSeq_exists s n p
  rw [h]
@[simp] theorem breakSeq_inProgress (n : Byte) (p : Word) : (s.breakSeq n p).inProgress = s.inProgress := by
  obtain ⟨m, h⟩ := breakSeq_exists s n p
  rw [h]
@[simp] theorem breakSeq_breakDue (n : Byte) (p : Word) : (s.breakSeq n p).breakDue = s.breakDue := by
  obtain ⟨m, h⟩ := breakSeq_exists s n p
  rw [h]
@[simp] theorem breakSeq_nmi (n : Byte) (p : Word) : (s.breakSeq n p).nmi = s.nmi := by
  obtain ⟨m, h⟩ := breakSeq_exists s n p
  rw [h]
@[simp] theorem breakSeq_int (n : Byte) (p : Word) : (s.breakSeq n p).int = s.int := by
  obtain ⟨m, h⟩ := breakSeq_exists s n p
  rw [h]
@[simp] theorem breakSeq_nmiVector (n : Byte) (p : Word) : (s.breakSeq n p).nmiVector = s.nmiVector := by
  obtain ⟨m, h⟩ := breakSeq_exists s n p
  rw [h]
@[simp] theorem breakSeq_pollActive (n : Byte) (p : Word) : (s.breakSeq n p).pollActive = s.pollActive := by
  obtain ⟨m, h⟩ := breakSeq_exists s n p
  rw [h]
@[simp] theorem breakSeq_ioIn (n : Byte) (p : Word) : (s.breakSeq n p).ioIn = s.ioIn := by
  obtain ⟨m, h⟩ := breakSeq_exists s n p
  rw [h]
@[simp] theorem breakSeq_ioOut (n : Byte) (p : Word) : (s.breakSeq n p).ioOut = s.ioOut := by
  obtain ⟨m, h⟩ := breakSeq_exists s n p
  rw [h]
@[simp] theorem breakSeq_stores (n : Byte) (p : Word) : (s.breakSeq n p).stores = [] := by
  obtain ⟨m, h⟩ := breakSeq_exists s n p
  rw [h]
@[simp] theorem breakSeq_draws (n : Byte) (p : Word) : (s.breakSeq n p).draws = s.draws := by
  obtain ⟨m, h⟩ := breakSeq_exists s n p
  rw [h]

/-! ### `undefStatus` -/

@[simp] theorem undefStatus_cls  : (s.undefStatus).cls = s.cls := by simp only [undefStatus, undefZ_cls, undefS_cls, undefP_cls, undefV_cls, undefCY_cls, undefAC_cls]
@[simp] theorem undefStatus_aw  : (s.undefStatus).aw = s.aw := by simp only [undefStatus, undefZ_aw, undefS_aw, undefP_aw, undefV_aw, undefCY_aw, undefAC_aw]
@[simp] theorem undefStatus_cw  : (s.undefStatus).cw = s.cw := by simp only [undefStatus, undefZ_cw, undefS_cw, undefP_cw, undefV_cw, undefCY_cw, undefAC_cw]
@[simp] theorem undefStatus_dw  : (s.undefStatus).dw = s.dw := by simp only [undefStatus, undefZ_dw, undefS_dw, undefP_dw, undefV_dw, undefCY_dw, undefAC_dw]
@[simp] theorem undefStatus_bw  : (s.undefStatus).bw = s.bw := by simp only [undefStatus, undefZ_bw, undefS_bw, undefP_bw, undefV_bw, undefCY_bw, undefAC_bw]
@[simp] theorem undefStatus_sp  : (s.undefStatus).sp = s.sp := by simp only [undefStatus, undefZ_sp, undefS_sp, undefP_sp, undefV_sp, undefCY_sp, undefAC_sp]
@[simp] theorem undefStatus_bp  : (s.undefStatus).bp = s.bp := by simp only [undefStatus, undefZ_bp, undefS_bp, undefP_bp, undefV_bp, undefCY_bp, undefAC_bp]
@[simp] theorem undefStatus_ix  : (s.undefStatus).ix = s.ix := by simp only [undefStatus, undefZ_ix, undefS_ix, undefP_ix, undefV_ix, undefCY_ix, undefAC_ix]
@[simp] theorem undefStatus_iy  : (s.undefStatus).iy = s.iy := by simp only [undefStatus, undefZ_iy, undefS_iy, undefP_iy, undefV_iy, undefCY_iy, undefAC_iy]
@[simp] theorem undefStatus_ds1  : (s.undefStatus).ds1 = s.ds1 := by simp only [undefStatus, undefZ_ds1, undefS_ds1, undefP_ds1, undefV_ds1, undefCY_ds1, undefAC_ds1]
@[simp] theorem undefStatus_ps  : (s.undefStatus).ps = s.ps := by simp only [undefStatus, undefZ_ps, undefS_ps, undefP_ps, undefV_ps, undefCY_ps, undefAC_ps]
@[simp] theorem undefStatus_ss  : (s.undefStatus).ss = s.ss := by simp only [undefStatus, undefZ_ss, undefS_ss, undefP_ss, undefV_ss, undefCY_ss, undefAC_ss]
@[simp] theorem undefStatus_ds0  : (s.undefStatus).ds0 = s.ds0 := by simp only [undefStatus, undefZ_ds0, undefS_ds0, undefP_ds0, undefV_ds0, undefCY_ds0, undefAC_ds0]
@[simp] theorem undefStatus_pc  : (s.undefStatus).pc = s.pc := by simp only [undefStatus, undefZ_pc, undefS_pc, undefP_pc, undefV_pc, undefCY_pc, undefAC_pc]
@[simp] theorem undefStatus_mdwe  : (s.undefStatus).mdwe = s.mdwe := by simp only [undefStatus, undefZ_mdwe, undefS_mdwe, undefP_mdwe, undefV_mdwe, undefCY_mdwe, undefAC_mdwe]
@[simp] theorem undefStatus_xam  : (s.undefStatus).xam = s.xam := by simp only [undefStatus, undefZ_xam, undefS_xam, undefP_xam, undefV_xam, undefCY_xam, undefAC_xam]
@[simp] theorem undefStatus_inhibit  : (s.undefStatus).inhibit = s.inhibit := by simp only [undefStatus, undefZ_inhibit, undefS_inhibit, undefP_inhibit, undefV_inhibit, undefCY_inhibit, undefAC_inhibit]
@[simp] theorem undefStatus_halted  : (s.undefStatus).halted = s.halted := by simp only [undefStatus, undefZ_halted, undefS_halted, undefP_halted, undefV_halted, undefCY_halted, undefAC_halted]
@[simp] theorem undefStatus_prefixes  : (s.undefStatus).prefixes = s.prefixes := by simp only [undefStatus, undefZ_prefixes, undefS_prefixes, undefP_prefixes, undefV_prefixes, undefCY_prefixes, undefAC_prefixes]
@[simp] theorem undefStatus_start  : (s.undefStatus).start = s.start := by simp only [undefStatus, undefZ_start, undefS_start, undefP_start, undefV_start, undefCY_start, undefAC_start]
@[simp] theorem undefStatus_window  : (s.undefStatus).window = s.window := by simp only [undefStatus, undefZ_window, undefS_window, undefP_window, undefV_window, undefCY_window, undefAC_window]
@[simp] theorem undefStatus_inProgress  : (s.undefStatus).inProgress = s.inProgress := by simp only [undefStatus, undefZ_inProgress, undefS_inProgress, undefP_inProgress, undefV_inProgress, undefCY_inProgress, undefAC_inProgress]
@[simp] theorem undefStatus_breakDue  : (s.undefStatus).breakDue = s.breakDue := by simp only [undefStatus, undefZ_breakDue, undefS_breakDue, undefP_breakDue, undefV_breakDue, undefCY_breakDue, undefAC_breakDue]
@[simp] theorem undefStatus_nmi  : (s.undefStatus).nmi = s.nmi := by simp only [undefStatus, undefZ_nmi, undefS_nmi, undefP_nmi, undefV_nmi, undefCY_nmi, undefAC_nmi]
@[simp] theorem undefStatus_int  : (s.undefStatus).int = s.int := by simp only [undefStatus, undefZ_int, undefS_int, undefP_int, undefV_int, undefCY_int, undefAC_int]
@[simp] theorem undefStatus_nmiVector  : (s.undefStatus).nmiVector = s.nmiVector := by simp only [undefStatus, undefZ_nmiVector, undefS_nmiVector, undefP_nmiVector, undefV_nmiVector, undefCY_nmiVector, undefAC_nmiVector]
@[simp] theorem undefStatus_pollActive  : (s.undefStatus).pollActive = s.pollActive := by simp only [undefStatus, undefZ_pollActive, undefS_pollActive, undefP_pollActive, undefV_pollActive, undefCY_pollActive, undefAC_pollActive]
@[simp] theorem undefStatus_ioIn  : (s.undefStatus).ioIn = s.ioIn := by simp only [undefStatus, undefZ_ioIn, undefS_ioIn, undefP_ioIn, undefV_ioIn, undefCY_ioIn, undefAC_ioIn]
@[simp] theorem undefStatus_ioOut  : (s.undefStatus).ioOut = s.ioOut := by simp only [undefStatus, undefZ_ioOut, undefS_ioOut, undefP_ioOut, undefV_ioOut, undefCY_ioOut, undefAC_ioOut]
@[simp] theorem undefStatus_stores  : (s.undefStatus).stores = s.stores := by simp only [undefStatus, undefZ_stores, undefS_stores, undefP_stores, undefV_stores, undefCY_stores, undefAC_stores]
@[simp] theorem undefStatus_mem  : (s.undefStatus).mem = s.mem := by simp only [undefStatus, undefZ_mem, undefS_mem, undefP_mem, undefV_mem, undefCY_mem, undefAC_mem]

/-! ### The memory keeps its canonical form -/

theorem writeByte_wf {s : State} (h : s.mem.wf) (g o : Word) (v : Byte) : (s.writeByte g o v).mem.wf :=
  storeByte_wf h _ _

theorem writeWord_wf {s : State} (h : s.mem.wf) (g o v : Word) : (s.writeWord g o v).mem.wf :=
  writeMem_wf h .word g o v

theorem writeEA_wf {s : State} (h : s.mem.wf) (w : Width) (m : MemArg) (v : BitVec w.bits) :
    (s.writeEA w m v).mem.wf := writeMem_wf h w _ _ v

theorem breakSeq_wf {s : State} (h : s.mem.wf) (n : Byte) (p : Word) : (s.breakSeq n p).mem.wf :=
  push16_wf (s := { (s.push16 s.pswWord).maskInterrupts.push16 s.ps with ps := s.vectorSegment n })
    (push16_wf (s := (s.push16 s.pswWord).maskInterrupts) (push16_wf h _) _) _

theorem reset_wf : State.reset.mem.wf := by decide

end Sys2Proof.Machine.State
end

