-- ==== Sys2Proof/Laws/PerInstr.lean ====
section
/-! SUPPORT. The family `Encoded`, one lemma for each instruction: the longest instruction has six bytes (R70), so a
fetch of six bytes holds any of them. -/

namespace Sys2Proof.Laws

/-- The bytes of an instruction are one to six (R70). -/
def Encoded.Statement (i : Instr) : Prop := 1 ≤ (encode i).length ∧ (encode i).length ≤ 6

theorem encodeMem_length (mid : BitVec 3) (m : MemArg) : (encodeMem mid m).length ≤ 3 := by
  cases m <;> simp [encodeMem, wordBytes]

theorem encodeRM_length (mid : BitVec 3) (o : RM) : (encodeRM mid o).length ≤ 3 := by
  cases o with
  | reg r => simp [encodeRM]
  | mem m => exact encodeMem_length mid m

theorem immBytes_length (v : Imm) : v.bytes.length ≤ 2 := by
  cases v <;> simp [Imm.bytes, wordBytes]

theorem immSBytes_length (v : ImmS) : v.bytes.length ≤ 2 := by
  cases v <;> simp [ImmS.bytes, wordBytes]

/-- Bytes whose number can be counted as they stand. -/
theorem encoded_fixed {i : Instr} (h : (1 ≤ (encode i).length && (encode i).length ≤ 6) = true) :
    Encoded.Statement i := by
  simpa [Encoded.Statement] using h

/-- An op code byte and at most five more. -/
theorem encoded_tail {i : Instr} {b : Byte} (l : List Byte) (h : encode i = b :: l) (n : l.length ≤ 5) :
    Encoded.Statement i := by
  simp only [Encoded.Statement, h, List.length_cons]
  omega

/-- An op code byte, an operand of at most three bytes and at most two more. -/
theorem encoded_operand {i : Instr} {b : Byte} (l k : List Byte) (h : encode i = b :: (l ++ k)) (n : l.length ≤ 3)
    (n' : k.length ≤ 2) : Encoded.Statement i := by
  simp only [Encoded.Statement, h, List.length_cons, List.length_append]
  omega

/-- Two op code bytes, an operand of at most three bytes and at most one more. -/
theorem encoded_group3 {i : Instr} {b c : Byte} (l k : List Byte) (h : encode i = b :: c :: (l ++ k))
    (n : l.length ≤ 3) (n' : k.length ≤ 1) : Encoded.Statement i := by
  simp only [Encoded.Statement, h, List.length_cons, List.length_append]
  omega

/-- Two op code bytes and an operand of at most three bytes. -/
theorem encoded_group3' {i : Instr} {b c : Byte} (l : List Byte) (h : encode i = b :: c :: l) (n : l.length ≤ 3) :
    Encoded.Statement i := by
  simp only [Encoded.Statement, h, List.length_cons]
  omega

theorem Encoded.addRmReg (w : Width) (rm : RM) (r : Reg) : Encoded.Statement (.addRmReg w rm r) :=
  encoded_tail _ rfl (Nat.le_trans (encodeRM_length _ rm) (Nat.le_of_ble_eq_true rfl))

theorem Encoded.addRegRm (w : Width) (r : Reg) (rm : RM) : Encoded.Statement (.addRegRm w r rm) :=
  encoded_tail _ rfl (Nat.le_trans (encodeRM_length _ rm) (Nat.le_of_ble_eq_true rfl))

theorem Encoded.addAccImm (v : Imm) : Encoded.Statement (.addAccImm v) :=
  encoded_tail _ rfl (Nat.le_trans (immBytes_length v) (Nat.le_of_ble_eq_true rfl))

theorem Encoded.addRmImm (rm : RM) (v : ImmS) : Encoded.Statement (.addRmImm rm v) :=
  encoded_operand _ _ rfl (encodeRM_length _ rm) (immSBytes_length v)

theorem Encoded.orRmReg (w : Width) (rm : RM) (r : Reg) : Encoded.Statement (.orRmReg w rm r) :=
  encoded_tail _ rfl (Nat.le_trans (encodeRM_length _ rm) (Nat.le_of_ble_eq_true rfl))

theorem Encoded.orRegRm (w : Width) (r : Reg) (rm : RM) : Encoded.Statement (.orRegRm w r rm) :=
  encoded_tail _ rfl (Nat.le_trans (encodeRM_length _ rm) (Nat.le_of_ble_eq_true rfl))

theorem Encoded.orAccImm (v : Imm) : Encoded.Statement (.orAccImm v) :=
  encoded_tail _ rfl (Nat.le_trans (immBytes_length v) (Nat.le_of_ble_eq_true rfl))

theorem Encoded.orRmImm (rm : RM) (v : ImmS) : Encoded.Statement (.orRmImm rm v) :=
  encoded_operand _ _ rfl (encodeRM_length _ rm) (immSBytes_length v)

theorem Encoded.addcRmReg (w : Width) (rm : RM) (r : Reg) : Encoded.Statement (.addcRmReg w rm r) :=
  encoded_tail _ rfl (Nat.le_trans (encodeRM_length _ rm) (Nat.le_of_ble_eq_true rfl))

theorem Encoded.addcRegRm (w : Width) (r : Reg) (rm : RM) : Encoded.Statement (.addcRegRm w r rm) :=
  encoded_tail _ rfl (Nat.le_trans (encodeRM_length _ rm) (Nat.le_of_ble_eq_true rfl))

theorem Encoded.addcAccImm (v : Imm) : Encoded.Statement (.addcAccImm v) :=
  encoded_tail _ rfl (Nat.le_trans (immBytes_length v) (Nat.le_of_ble_eq_true rfl))

theorem Encoded.addcRmImm (rm : RM) (v : ImmS) : Encoded.Statement (.addcRmImm rm v) :=
  encoded_operand _ _ rfl (encodeRM_length _ rm) (immSBytes_length v)

theorem Encoded.subcRmReg (w : Width) (rm : RM) (r : Reg) : Encoded.Statement (.subcRmReg w rm r) :=
  encoded_tail _ rfl (Nat.le_trans (encodeRM_length _ rm) (Nat.le_of_ble_eq_true rfl))

theorem Encoded.subcRegRm (w : Width) (r : Reg) (rm : RM) : Encoded.Statement (.subcRegRm w r rm) :=
  encoded_tail _ rfl (Nat.le_trans (encodeRM_length _ rm) (Nat.le_of_ble_eq_true rfl))

theorem Encoded.subcAccImm (v : Imm) : Encoded.Statement (.subcAccImm v) :=
  encoded_tail _ rfl (Nat.le_trans (immBytes_length v) (Nat.le_of_ble_eq_true rfl))

theorem Encoded.subcRmImm (rm : RM) (v : ImmS) : Encoded.Statement (.subcRmImm rm v) :=
  encoded_operand _ _ rfl (encodeRM_length _ rm) (immSBytes_length v)

theorem Encoded.andRmReg (w : Width) (rm : RM) (r : Reg) : Encoded.Statement (.andRmReg w rm r) :=
  encoded_tail _ rfl (Nat.le_trans (encodeRM_length _ rm) (Nat.le_of_ble_eq_true rfl))

theorem Encoded.andRegRm (w : Width) (r : Reg) (rm : RM) : Encoded.Statement (.andRegRm w r rm) :=
  encoded_tail _ rfl (Nat.le_trans (encodeRM_length _ rm) (Nat.le_of_ble_eq_true rfl))

theorem Encoded.andAccImm (v : Imm) : Encoded.Statement (.andAccImm v) :=
  encoded_tail _ rfl (Nat.le_trans (immBytes_length v) (Nat.le_of_ble_eq_true rfl))

theorem Encoded.andRmImm (rm : RM) (v : ImmS) : Encoded.Statement (.andRmImm rm v) :=
  encoded_operand _ _ rfl (encodeRM_length _ rm) (immSBytes_length v)

theorem Encoded.subRmReg (w : Width) (rm : RM) (r : Reg) : Encoded.Statement (.subRmReg w rm r) :=
  encoded_tail _ rfl (Nat.le_trans (encodeRM_length _ rm) (Nat.le_of_ble_eq_true rfl))

theorem Encoded.subRegRm (w : Width) (r : Reg) (rm : RM) : Encoded.Statement (.subRegRm w r rm) :=
  encoded_tail _ rfl (Nat.le_trans (encodeRM_length _ rm) (Nat.le_of_ble_eq_true rfl))

theorem Encoded.subAccImm (v : Imm) : Encoded.Statement (.subAccImm v) :=
  encoded_tail _ rfl (Nat.le_trans (immBytes_length v) (Nat.le_of_ble_eq_true rfl))

theorem Encoded.subRmImm (rm : RM) (v : ImmS) : Encoded.Statement (.subRmImm rm v) :=
  encoded_operand _ _ rfl (encodeRM_length _ rm) (immSBytes_length v)

theorem Encoded.xorRmReg (w : Width) (rm : RM) (r : Reg) : Encoded.Statement (.xorRmReg w rm r) :=
  encoded_tail _ rfl (Nat.le_trans (encodeRM_length _ rm) (Nat.le_of_ble_eq_true rfl))

theorem Encoded.xorRegRm (w : Width) (r : Reg) (rm : RM) : Encoded.Statement (.xorRegRm w r rm) :=
  encoded_tail _ rfl (Nat.le_trans (encodeRM_length _ rm) (Nat.le_of_ble_eq_true rfl))

theorem Encoded.xorAccImm (v : Imm) : Encoded.Statement (.xorAccImm v) :=
  encoded_tail _ rfl (Nat.le_trans (immBytes_length v) (Nat.le_of_ble_eq_true rfl))

theorem Encoded.xorRmImm (rm : RM) (v : ImmS) : Encoded.Statement (.xorRmImm rm v) :=
  encoded_operand _ _ rfl (encodeRM_length _ rm) (immSBytes_length v)

theorem Encoded.cmpRmReg (w : Width) (rm : RM) (r : Reg) : Encoded.Statement (.cmpRmReg w rm r) :=
  encoded_tail _ rfl (Nat.le_trans (encodeRM_length _ rm) (Nat.le_of_ble_eq_true rfl))

theorem Encoded.cmpRegRm (w : Width) (r : Reg) (rm : RM) : Encoded.Statement (.cmpRegRm w r rm) :=
  encoded_tail _ rfl (Nat.le_trans (encodeRM_length _ rm) (Nat.le_of_ble_eq_true rfl))

theorem Encoded.cmpAccImm (v : Imm) : Encoded.Statement (.cmpAccImm v) :=
  encoded_tail _ rfl (Nat.le_trans (immBytes_length v) (Nat.le_of_ble_eq_true rfl))

theorem Encoded.cmpRmImm (rm : RM) (v : ImmS) : Encoded.Statement (.cmpRmImm rm v) :=
  encoded_operand _ _ rfl (encodeRM_length _ rm) (immSBytes_length v)

theorem Encoded.testRmReg (w : Width) (rm : RM) (r : Reg) : Encoded.Statement (.testRmReg w rm r) :=
  encoded_tail _ rfl (Nat.le_trans (encodeRM_length _ rm) (Nat.le_of_ble_eq_true rfl))

theorem Encoded.testAccImm (v : Imm) : Encoded.Statement (.testAccImm v) :=
  encoded_tail _ rfl (Nat.le_trans (immBytes_length v) (Nat.le_of_ble_eq_true rfl))

theorem Encoded.testRmImm (rm : RM) (v : Imm) : Encoded.Statement (.testRmImm rm v) :=
  encoded_operand _ _ rfl (encodeRM_length _ rm) (immBytes_length v)

theorem Encoded.notRm (w : Width) (rm : RM) : Encoded.Statement (.notRm w rm) :=
  encoded_tail _ rfl (Nat.le_trans (encodeRM_length _ rm) (Nat.le_of_ble_eq_true rfl))

theorem Encoded.negRm (w : Width) (rm : RM) : Encoded.Statement (.negRm w rm) :=
  encoded_tail _ rfl (Nat.le_trans (encodeRM_length _ rm) (Nat.le_of_ble_eq_true rfl))

theorem Encoded.muluRm (w : Width) (rm : RM) : Encoded.Statement (.muluRm w rm) :=
  encoded_tail _ rfl (Nat.le_trans (encodeRM_length _ rm) (Nat.le_of_ble_eq_true rfl))

theorem Encoded.mulRm (w : Width) (rm : RM) : Encoded.Statement (.mulRm w rm) :=
  encoded_tail _ rfl (Nat.le_trans (encodeRM_length _ rm) (Nat.le_of_ble_eq_true rfl))

theorem Encoded.divuRm (w : Width) (rm : RM) : Encoded.Statement (.divuRm w rm) :=
  encoded_tail _ rfl (Nat.le_trans (encodeRM_length _ rm) (Nat.le_of_ble_eq_true rfl))

theorem Encoded.divRm (w : Width) (rm : RM) : Encoded.Statement (.divRm w rm) :=
  encoded_tail _ rfl (Nat.le_trans (encodeRM_length _ rm) (Nat.le_of_ble_eq_true rfl))

theorem Encoded.mulRegRmImm16 (r : Reg) (rm : RM) (v : Word) : Encoded.Statement (.mulRegRmImm16 r rm v) :=
  encoded_operand _ _ rfl (encodeRM_length _ rm) (Nat.le_of_ble_eq_true rfl)

theorem Encoded.mulRegRmImm8 (r : Reg) (rm : RM) (v : Byte) : Encoded.Statement (.mulRegRmImm8 r rm v) :=
  encoded_operand _ _ rfl (encodeRM_length _ rm) (Nat.le_of_ble_eq_true rfl)

theorem Encoded.incReg (r : Reg) : Encoded.Statement (.incReg r) := encoded_fixed rfl

theorem Encoded.decReg (r : Reg) : Encoded.Statement (.decReg r) := encoded_fixed rfl

theorem Encoded.incRm (w : Width) (rm : RM) : Encoded.Statement (.incRm w rm) :=
  encoded_tail _ rfl (Nat.le_trans (encodeRM_length _ rm) (Nat.le_of_ble_eq_true rfl))

theorem Encoded.decRm (w : Width) (rm : RM) : Encoded.Statement (.decRm w rm) :=
  encoded_tail _ rfl (Nat.le_trans (encodeRM_length _ rm) (Nat.le_of_ble_eq_true rfl))

theorem Encoded.callRegptr (r : Reg) : Encoded.Statement (.callRegptr r) := encoded_fixed rfl

theorem Encoded.callMemptr16 (m : MemArg) : Encoded.Statement (.callMemptr16 m) :=
  encoded_tail _ rfl (Nat.le_trans (encodeMem_length _ m) (Nat.le_of_ble_eq_true rfl))

theorem Encoded.callMemptr32 (m : MemArg) : Encoded.Statement (.callMemptr32 m) :=
  encoded_tail _ rfl (Nat.le_trans (encodeMem_length _ m) (Nat.le_of_ble_eq_true rfl))

theorem Encoded.brRegptr (r : Reg) : Encoded.Statement (.brRegptr r) := encoded_fixed rfl

theorem Encoded.brMemptr16 (m : MemArg) : Encoded.Statement (.brMemptr16 m) :=
  encoded_tail _ rfl (Nat.le_trans (encodeMem_length _ m) (Nat.le_of_ble_eq_true rfl))

theorem Encoded.brMemptr32 (m : MemArg) : Encoded.Statement (.brMemptr32 m) :=
  encoded_tail _ rfl (Nat.le_trans (encodeMem_length _ m) (Nat.le_of_ble_eq_true rfl))

theorem Encoded.pushMem (m : MemArg) : Encoded.Statement (.pushMem m) :=
  encoded_tail _ rfl (Nat.le_trans (encodeMem_length _ m) (Nat.le_of_ble_eq_true rfl))

theorem Encoded.pushReg (r : Reg) : Encoded.Statement (.pushReg r) := encoded_fixed rfl

theorem Encoded.popReg (r : Reg) : Encoded.Statement (.popReg r) := encoded_fixed rfl

theorem Encoded.pushSreg (s : SReg) : Encoded.Statement (.pushSreg s) := encoded_fixed rfl

theorem Encoded.popSreg (s : DataSReg) : Encoded.Statement (.popSreg s) := encoded_fixed rfl

theorem Encoded.pushPsw : Encoded.Statement .pushPsw := encoded_fixed rfl

theorem Encoded.popPsw : Encoded.Statement .popPsw := encoded_fixed rfl

theorem Encoded.pushR : Encoded.Statement .pushR := encoded_fixed rfl

theorem Encoded.popR : Encoded.Statement .popR := encoded_fixed rfl

theorem Encoded.pushImm16 (v : Word) : Encoded.Statement (.pushImm16 v) := encoded_fixed rfl

theorem Encoded.pushImm8 (v : Byte) : Encoded.Statement (.pushImm8 v) := encoded_fixed rfl

theorem Encoded.popMem (m : MemArg) : Encoded.Statement (.popMem m) :=
  encoded_tail _ rfl (Nat.le_trans (encodeMem_length _ m) (Nat.le_of_ble_eq_true rfl))

theorem Encoded.prepare (s : Word) (l : Byte) : Encoded.Statement (.prepare s l) := encoded_fixed rfl

theorem Encoded.dispose : Encoded.Statement .dispose := encoded_fixed rfl

theorem Encoded.segDs1 : Encoded.Statement .segDs1 := encoded_fixed rfl

theorem Encoded.segPs : Encoded.Statement .segPs := encoded_fixed rfl

theorem Encoded.segSs : Encoded.Statement .segSs := encoded_fixed rfl

theorem Encoded.segDs0 : Encoded.Statement .segDs0 := encoded_fixed rfl

theorem Encoded.adj4a : Encoded.Statement .adj4a := encoded_fixed rfl

theorem Encoded.adj4s : Encoded.Statement .adj4s := encoded_fixed rfl

theorem Encoded.adjba : Encoded.Statement .adjba := encoded_fixed rfl

theorem Encoded.adjbs : Encoded.Statement .adjbs := encoded_fixed rfl

theorem Encoded.chkind (r : Reg) (m : MemArg) : Encoded.Statement (.chkind r m) :=
  encoded_tail _ rfl (Nat.le_trans (encodeMem_length _ m) (Nat.le_of_ble_eq_true rfl))

theorem Encoded.repnc : Encoded.Statement .repnc := encoded_fixed rfl

theorem Encoded.repc : Encoded.Statement .repc := encoded_fixed rfl

theorem Encoded.fpo2Reg (x : BitVec 1) (y : BitVec 3) (z : BitVec 3) : Encoded.Statement (.fpo2Reg x y z) :=
  encoded_fixed rfl

theorem Encoded.fpo2Mem (x : BitVec 1) (y : BitVec 3) (m : MemArg) : Encoded.Statement (.fpo2Mem x y m) :=
  encoded_tail _ rfl (Nat.le_trans (encodeMem_length _ m) (Nat.le_of_ble_eq_true rfl))

theorem Encoded.inm (w : Width) : Encoded.Statement (.inm w) := encoded_fixed rfl

theorem Encoded.outm (w : Width) : Encoded.Statement (.outm w) := encoded_fixed rfl

theorem Encoded.bv (d : Byte) : Encoded.Statement (.bv d) := encoded_fixed rfl

theorem Encoded.bnv (d : Byte) : Encoded.Statement (.bnv d) := encoded_fixed rfl

theorem Encoded.bc (d : Byte) : Encoded.Statement (.bc d) := encoded_fixed rfl

theorem Encoded.bnc (d : Byte) : Encoded.Statement (.bnc d) := encoded_fixed rfl

theorem Encoded.be (d : Byte) : Encoded.Statement (.be d) := encoded_fixed rfl

theorem Encoded.bne (d : Byte) : Encoded.Statement (.bne d) := encoded_fixed rfl

theorem Encoded.bnh (d : Byte) : Encoded.Statement (.bnh d) := encoded_fixed rfl

theorem Encoded.bh (d : Byte) : Encoded.Statement (.bh d) := encoded_fixed rfl

theorem Encoded.bn (d : Byte) : Encoded.Statement (.bn d) := encoded_fixed rfl

theorem Encoded.bp (d : Byte) : Encoded.Statement (.bp d) := encoded_fixed rfl

theorem Encoded.bpe (d : Byte) : Encoded.Statement (.bpe d) := encoded_fixed rfl

theorem Encoded.bpo (d : Byte) : Encoded.Statement (.bpo d) := encoded_fixed rfl

theorem Encoded.blt (d : Byte) : Encoded.Statement (.blt d) := encoded_fixed rfl

theorem Encoded.bge (d : Byte) : Encoded.Statement (.bge d) := encoded_fixed rfl

theorem Encoded.ble (d : Byte) : Encoded.Statement (.ble d) := encoded_fixed rfl

theorem Encoded.bgt (d : Byte) : Encoded.Statement (.bgt d) := encoded_fixed rfl

theorem Encoded.dbnzne (d : Byte) : Encoded.Statement (.dbnzne d) := encoded_fixed rfl

theorem Encoded.dbnze (d : Byte) : Encoded.Statement (.dbnze d) := encoded_fixed rfl

theorem Encoded.dbnz (d : Byte) : Encoded.Statement (.dbnz d) := encoded_fixed rfl

theorem Encoded.bcwz (d : Byte) : Encoded.Statement (.bcwz d) := encoded_fixed rfl

theorem Encoded.xchRegReg (w : Width) (a : Reg) (b : Reg) : Encoded.Statement (.xchRegReg w a b) := encoded_fixed rfl

theorem Encoded.xchMemReg (w : Width) (m : MemArg) (r : Reg) : Encoded.Statement (.xchMemReg w m r) :=
  encoded_tail _ rfl (Nat.le_trans (encodeMem_length _ m) (Nat.le_of_ble_eq_true rfl))

theorem Encoded.movRmReg (w : Width) (rm : RM) (r : Reg) : Encoded.Statement (.movRmReg w rm r) :=
  encoded_tail _ rfl (Nat.le_trans (encodeRM_length _ rm) (Nat.le_of_ble_eq_true rfl))

theorem Encoded.movRegReg (w : Width) (r : Reg) (r' : Reg) : Encoded.Statement (.movRegReg w r r') :=
  encoded_fixed rfl

theorem Encoded.movRegMem (w : Width) (r : Reg) (m : MemArg) : Encoded.Statement (.movRegMem w r m) :=
  encoded_tail _ rfl (Nat.le_trans (encodeMem_length _ m) (Nat.le_of_ble_eq_true rfl))

theorem Encoded.movRmSreg (rm : RM) (s : SReg) : Encoded.Statement (.movRmSreg rm s) :=
  encoded_tail _ rfl (Nat.le_trans (encodeRM_length _ rm) (Nat.le_of_ble_eq_true rfl))

theorem Encoded.ldea (r : Reg) (m : MemArg) : Encoded.Statement (.ldea r m) :=
  encoded_tail _ rfl (Nat.le_trans (encodeMem_length _ m) (Nat.le_of_ble_eq_true rfl))

theorem Encoded.movSregRm (s : DataSReg) (rm : RM) : Encoded.Statement (.movSregRm s rm) :=
  encoded_tail _ rfl (Nat.le_trans (encodeRM_length _ rm) (Nat.le_of_ble_eq_true rfl))

theorem Encoded.nop : Encoded.Statement .nop := encoded_fixed rfl

theorem Encoded.xchAwReg (r : Reg) : Encoded.Statement (.xchAwReg r) := encoded_fixed rfl

theorem Encoded.cvtbw : Encoded.Statement .cvtbw := encoded_fixed rfl

theorem Encoded.cvtwl : Encoded.Statement .cvtwl := encoded_fixed rfl

theorem Encoded.callFar (o : Word) (s : Word) : Encoded.Statement (.callFar o s) := encoded_fixed rfl

theorem Encoded.poll : Encoded.Statement .poll := encoded_fixed rfl

theorem Encoded.movPswAh : Encoded.Statement .movPswAh := encoded_fixed rfl

theorem Encoded.movAhPsw : Encoded.Statement .movAhPsw := encoded_fixed rfl

theorem Encoded.movAccDmem (w : Width) (a : Word) : Encoded.Statement (.movAccDmem w a) := encoded_fixed rfl

theorem Encoded.movDmemAcc (w : Width) (a : Word) : Encoded.Statement (.movDmemAcc w a) := encoded_fixed rfl

theorem Encoded.movbk (w : Width) : Encoded.Statement (.movbk w) := encoded_fixed rfl

theorem Encoded.cmpbk (w : Width) : Encoded.Statement (.cmpbk w) := encoded_fixed rfl

theorem Encoded.stm (w : Width) : Encoded.Statement (.stm w) := encoded_fixed rfl

theorem Encoded.ldm (w : Width) : Encoded.Statement (.ldm w) := encoded_fixed rfl

theorem Encoded.cmpm (w : Width) : Encoded.Statement (.cmpm w) := encoded_fixed rfl

theorem Encoded.movRegImm (r : Reg) (v : Imm) : Encoded.Statement (.movRegImm r v) := by
  cases v <;> exact encoded_fixed rfl

theorem Encoded.rolOne (w : Width) (rm : RM) : Encoded.Statement (.rolOne w rm) :=
  encoded_tail _ rfl (Nat.le_trans (encodeRM_length _ rm) (Nat.le_of_ble_eq_true rfl))

theorem Encoded.rolCl (w : Width) (rm : RM) : Encoded.Statement (.rolCl w rm) :=
  encoded_tail _ rfl (Nat.le_trans (encodeRM_length _ rm) (Nat.le_of_ble_eq_true rfl))

theorem Encoded.rolImm (w : Width) (rm : RM) (n : Byte) : Encoded.Statement (.rolImm w rm n) :=
  encoded_operand _ _ rfl (encodeRM_length _ rm) (Nat.le_of_ble_eq_true rfl)

theorem Encoded.rorOne (w : Width) (rm : RM) : Encoded.Statement (.rorOne w rm) :=
  encoded_tail _ rfl (Nat.le_trans (encodeRM_length _ rm) (Nat.le_of_ble_eq_true rfl))

theorem Encoded.rorCl (w : Width) (rm : RM) : Encoded.Statement (.rorCl w rm) :=
  encoded_tail _ rfl (Nat.le_trans (encodeRM_length _ rm) (Nat.le_of_ble_eq_true rfl))

theorem Encoded.rorImm (w : Width) (rm : RM) (n : Byte) : Encoded.Statement (.rorImm w rm n) :=
  encoded_operand _ _ rfl (encodeRM_length _ rm) (Nat.le_of_ble_eq_true rfl)

theorem Encoded.rolcOne (w : Width) (rm : RM) : Encoded.Statement (.rolcOne w rm) :=
  encoded_tail _ rfl (Nat.le_trans (encodeRM_length _ rm) (Nat.le_of_ble_eq_true rfl))

theorem Encoded.rolcCl (w : Width) (rm : RM) : Encoded.Statement (.rolcCl w rm) :=
  encoded_tail _ rfl (Nat.le_trans (encodeRM_length _ rm) (Nat.le_of_ble_eq_true rfl))

theorem Encoded.rolcImm (w : Width) (rm : RM) (n : Byte) : Encoded.Statement (.rolcImm w rm n) :=
  encoded_operand _ _ rfl (encodeRM_length _ rm) (Nat.le_of_ble_eq_true rfl)

theorem Encoded.rorcOne (w : Width) (rm : RM) : Encoded.Statement (.rorcOne w rm) :=
  encoded_tail _ rfl (Nat.le_trans (encodeRM_length _ rm) (Nat.le_of_ble_eq_true rfl))

theorem Encoded.rorcCl (w : Width) (rm : RM) : Encoded.Statement (.rorcCl w rm) :=
  encoded_tail _ rfl (Nat.le_trans (encodeRM_length _ rm) (Nat.le_of_ble_eq_true rfl))

theorem Encoded.rorcImm (w : Width) (rm : RM) (n : Byte) : Encoded.Statement (.rorcImm w rm n) :=
  encoded_operand _ _ rfl (encodeRM_length _ rm) (Nat.le_of_ble_eq_true rfl)

theorem Encoded.shlOne (w : Width) (rm : RM) : Encoded.Statement (.shlOne w rm) :=
  encoded_tail _ rfl (Nat.le_trans (encodeRM_length _ rm) (Nat.le_of_ble_eq_true rfl))

theorem Encoded.shlCl (w : Width) (rm : RM) : Encoded.Statement (.shlCl w rm) :=
  encoded_tail _ rfl (Nat.le_trans (encodeRM_length _ rm) (Nat.le_of_ble_eq_true rfl))

theorem Encoded.shlImm (w : Width) (rm : RM) (n : Byte) : Encoded.Statement (.shlImm w rm n) :=
  encoded_operand _ _ rfl (encodeRM_length _ rm) (Nat.le_of_ble_eq_true rfl)

theorem Encoded.shrOne (w : Width) (rm : RM) : Encoded.Statement (.shrOne w rm) :=
  encoded_tail _ rfl (Nat.le_trans (encodeRM_length _ rm) (Nat.le_of_ble_eq_true rfl))

theorem Encoded.shrCl (w : Width) (rm : RM) : Encoded.Statement (.shrCl w rm) :=
  encoded_tail _ rfl (Nat.le_trans (encodeRM_length _ rm) (Nat.le_of_ble_eq_true rfl))

theorem Encoded.shrImm (w : Width) (rm : RM) (n : Byte) : Encoded.Statement (.shrImm w rm n) :=
  encoded_operand _ _ rfl (encodeRM_length _ rm) (Nat.le_of_ble_eq_true rfl)

theorem Encoded.shraOne (w : Width) (rm : RM) : Encoded.Statement (.shraOne w rm) :=
  encoded_tail _ rfl (Nat.le_trans (encodeRM_length _ rm) (Nat.le_of_ble_eq_true rfl))

theorem Encoded.shraCl (w : Width) (rm : RM) : Encoded.Statement (.shraCl w rm) :=
  encoded_tail _ rfl (Nat.le_trans (encodeRM_length _ rm) (Nat.le_of_ble_eq_true rfl))

theorem Encoded.shraImm (w : Width) (rm : RM) (n : Byte) : Encoded.Statement (.shraImm w rm n) :=
  encoded_operand _ _ rfl (encodeRM_length _ rm) (Nat.le_of_ble_eq_true rfl)

theorem Encoded.retPop (v : Word) : Encoded.Statement (.retPop v) := encoded_fixed rfl

theorem Encoded.ret : Encoded.Statement .ret := encoded_fixed rfl

theorem Encoded.movDs1RegMem (r : Reg) (m : MemArg) : Encoded.Statement (.movDs1RegMem r m) :=
  encoded_tail _ rfl (Nat.le_trans (encodeMem_length _ m) (Nat.le_of_ble_eq_true rfl))

theorem Encoded.movDs0RegMem (r : Reg) (m : MemArg) : Encoded.Statement (.movDs0RegMem r m) :=
  encoded_tail _ rfl (Nat.le_trans (encodeMem_length _ m) (Nat.le_of_ble_eq_true rfl))

theorem Encoded.movMemImm (m : MemArg) (v : Imm) : Encoded.Statement (.movMemImm m v) :=
  encoded_operand _ _ rfl (encodeMem_length _ m) (immBytes_length v)

theorem Encoded.retFarPop (v : Word) : Encoded.Statement (.retFarPop v) := encoded_fixed rfl

theorem Encoded.retFar : Encoded.Statement .retFar := encoded_fixed rfl

theorem Encoded.brk3 : Encoded.Statement .brk3 := encoded_fixed rfl

theorem Encoded.brkImm (v : Byte) : Encoded.Statement (.brkImm v) := encoded_fixed rfl

theorem Encoded.brkv : Encoded.Statement .brkv := encoded_fixed rfl

theorem Encoded.reti : Encoded.Statement .reti := encoded_fixed rfl

theorem Encoded.cvtbd : Encoded.Statement .cvtbd := encoded_fixed rfl

theorem Encoded.cvtdb : Encoded.Statement .cvtdb := encoded_fixed rfl

theorem Encoded.trans : Encoded.Statement .trans := encoded_fixed rfl

theorem Encoded.fpo1Reg (x : BitVec 3) (y : BitVec 3) (z : BitVec 3) : Encoded.Statement (.fpo1Reg x y z) :=
  encoded_fixed rfl

theorem Encoded.fpo1Mem (x : BitVec 3) (y : BitVec 3) (m : MemArg) : Encoded.Statement (.fpo1Mem x y m) :=
  encoded_tail _ rfl (Nat.le_trans (encodeMem_length _ m) (Nat.le_of_ble_eq_true rfl))

theorem Encoded.inAccImm (w : Width) (p : Byte) : Encoded.Statement (.inAccImm w p) := encoded_fixed rfl

theorem Encoded.outImmAcc (w : Width) (p : Byte) : Encoded.Statement (.outImmAcc w p) := encoded_fixed rfl

theorem Encoded.callNear (d : Word) : Encoded.Statement (.callNear d) := encoded_fixed rfl

theorem Encoded.brNear (d : Word) : Encoded.Statement (.brNear d) := encoded_fixed rfl

theorem Encoded.brFar (o : Word) (s : Word) : Encoded.Statement (.brFar o s) := encoded_fixed rfl

theorem Encoded.brShort (d : Byte) : Encoded.Statement (.brShort d) := encoded_fixed rfl

theorem Encoded.inAccDw (w : Width) : Encoded.Statement (.inAccDw w) := encoded_fixed rfl

theorem Encoded.outDwAcc (w : Width) : Encoded.Statement (.outDwAcc w) := encoded_fixed rfl

theorem Encoded.buslock : Encoded.Statement .buslock := encoded_fixed rfl

theorem Encoded.repne : Encoded.Statement .repne := encoded_fixed rfl

theorem Encoded.rep : Encoded.Statement .rep := encoded_fixed rfl

theorem Encoded.halt : Encoded.Statement .halt := encoded_fixed rfl

theorem Encoded.not1Cy : Encoded.Statement .not1Cy := encoded_fixed rfl

theorem Encoded.clr1Cy : Encoded.Statement .clr1Cy := encoded_fixed rfl

theorem Encoded.set1Cy : Encoded.Statement .set1Cy := encoded_fixed rfl

theorem Encoded.di : Encoded.Statement .di := encoded_fixed rfl

theorem Encoded.ei : Encoded.Statement .ei := encoded_fixed rfl

theorem Encoded.clr1Dir : Encoded.Statement .clr1Dir := encoded_fixed rfl

theorem Encoded.set1Dir : Encoded.Statement .set1Dir := encoded_fixed rfl

theorem Encoded.test1Cl (w : Width) (rm : RM) : Encoded.Statement (.test1Cl w rm) :=
  encoded_group3' _ rfl (encodeRM_length _ rm)

theorem Encoded.test1Imm (w : Width) (rm : RM) (n : Byte) : Encoded.Statement (.test1Imm w rm n) :=
  encoded_group3 _ _ rfl (encodeRM_length _ rm) (Nat.le_of_ble_eq_true rfl)

theorem Encoded.clr1Cl (w : Width) (rm : RM) : Encoded.Statement (.clr1Cl w rm) :=
  encoded_group3' _ rfl (encodeRM_length _ rm)

theorem Encoded.clr1Imm (w : Width) (rm : RM) (n : Byte) : Encoded.Statement (.clr1Imm w rm n) :=
  encoded_group3 _ _ rfl (encodeRM_length _ rm) (Nat.le_of_ble_eq_true rfl)

theorem Encoded.set1Cl (w : Width) (rm : RM) : Encoded.Statement (.set1Cl w rm) :=
  encoded_group3' _ rfl (encodeRM_length _ rm)

theorem Encoded.set1Imm (w : Width) (rm : RM) (n : Byte) : Encoded.Statement (.set1Imm w rm n) :=
  encoded_group3 _ _ rfl (encodeRM_length _ rm) (Nat.le_of_ble_eq_true rfl)

theorem Encoded.not1Cl (w : Width) (rm : RM) : Encoded.Statement (.not1Cl w rm) :=
  encoded_group3' _ rfl (encodeRM_length _ rm)

theorem Encoded.not1Imm (w : Width) (rm : RM) (n : Byte) : Encoded.Statement (.not1Imm w rm n) :=
  encoded_group3 _ _ rfl (encodeRM_length _ rm) (Nat.le_of_ble_eq_true rfl)

theorem Encoded.add4s : Encoded.Statement .add4s := encoded_fixed rfl

theorem Encoded.sub4s : Encoded.Statement .sub4s := encoded_fixed rfl

theorem Encoded.cmp4s : Encoded.Statement .cmp4s := encoded_fixed rfl

theorem Encoded.rol4 (rm : RM) : Encoded.Statement (.rol4 rm) :=
  encoded_group3' _ rfl (encodeRM_length _ rm)

theorem Encoded.ror4 (rm : RM) : Encoded.Statement (.ror4 rm) :=
  encoded_group3' _ rfl (encodeRM_length _ rm)

theorem Encoded.insRegReg (o : Reg) (l : Reg) : Encoded.Statement (.insRegReg o l) := encoded_fixed rfl

theorem Encoded.extRegReg (o : Reg) (l : Reg) : Encoded.Statement (.extRegReg o l) := encoded_fixed rfl

theorem Encoded.insRegImm (o : Reg) (n : Byte) : Encoded.Statement (.insRegImm o n) := encoded_fixed rfl

theorem Encoded.extRegImm (o : Reg) (n : Byte) : Encoded.Statement (.extRegImm o n) := encoded_fixed rfl

theorem Encoded.brkxa (v : Byte) : Encoded.Statement (.brkxa v) := encoded_fixed rfl

theorem Encoded.retxa (v : Byte) : Encoded.Statement (.retxa v) := encoded_fixed rfl

theorem Encoded.brkem (v : Byte) : Encoded.Statement (.brkem v) := encoded_fixed rfl

theorem Encoded.calln (v : Byte) : Encoded.Statement (.calln v) := encoded_fixed rfl

theorem Encoded.retem : Encoded.Statement .retem := encoded_fixed rfl

theorem Encoded.undef63 : Encoded.Statement .undef63 := encoded_fixed rfl

theorem Encoded.undefD6 : Encoded.Statement .undefD6 := encoded_fixed rfl

theorem Encoded.undefF1 : Encoded.Statement .undefF1 := encoded_fixed rfl

theorem Encoded.undefC0 (w : Width) (md : BitVec 2) (mem : BitVec 3) : Encoded.Statement (.undefC0 w md mem) :=
  encoded_fixed rfl

theorem Encoded.undefD0 (w : Width) (md : BitVec 2) (mem : BitVec 3) : Encoded.Statement (.undefD0 w md mem) :=
  encoded_fixed rfl

theorem Encoded.undefD2 (w : Width) (md : BitVec 2) (mem : BitVec 3) : Encoded.Statement (.undefD2 w md mem) :=
  encoded_fixed rfl

theorem Encoded.undefF6 (w : Width) (md : BitVec 2) (mem : BitVec 3) : Encoded.Statement (.undefF6 w md mem) :=
  encoded_fixed rfl

theorem Encoded.undefFF (md : BitVec 2) (mem : BitVec 3) : Encoded.Statement (.undefFF md mem) := encoded_fixed rfl

theorem Encoded.undefFE (md : BitVec 2) (sub : BitVec 3) (mem : BitVec 3) : Encoded.Statement (.undefFE md sub mem) :=
  encoded_fixed rfl

theorem Encoded.undef0F (b : Byte) : Encoded.Statement (.undef0F b) := encoded_fixed rfl

theorem Encoded.undefCvt (w : Width) (b : Byte) : Encoded.Statement (.undefCvt w b) := encoded_fixed rfl

end Sys2Proof.Laws
end

