-- ==== Sys2Proof/Laws/Sequence.lean ====
section
/-! SUPPORT. What the loop of a repeated block instruction, the instruction boundary and the step can do, each said
once. -/

namespace Sys2Proof.Machine

open State

/-- Everything a block instruction can answer as a next state (R145): one element without a repeat prefix; with one,
nothing for CW = 0, else one element, CW one less, and the instruction in progress or ended. -/
theorem runBlock_next {i : Instr} {compares : Bool} {element : State → State} {s t : State}
    (h : runBlock i compares element s = .next t) :
    s.prefixes.repeated = none ∧ t = element s ∨
      ∃ r, s.prefixes.repeated = some r ∧ ¬ ((r = .repc ∨ r = .repnc) ∧ compares = false) ∧
        (s.cw = 0 ∧ t = s ∨
          s.cw ≠ 0 ∧
            (((element s).cw - 1 ≠ 0 ∧ (compares = true → r.goesOn (element s).psw = true)) ∧
                t = { element s with cw := (element s).cw - 1, inProgress := some i } ∨
              ¬ ((element s).cw - 1 ≠ 0 ∧ (compares = true → r.goesOn (element s).psw = true)) ∧
                t = { element s with cw := (element s).cw - 1 })) := by
  cases hr : s.prefixes.repeated with
  | none =>
    simp only [runBlock, hr, Host.Outcome.next.injEq] at h
    exact .inl ⟨rfl, h.symm⟩
  | some r =>
    simp only [runBlock, hr] at h
    split at h
    · cases h
    · rename_i hc
      refine .inr ⟨r, rfl, by cases r <;> cases compares <;> simp_all, ?_⟩
      split at h
      · rename_i h0
        cases h
        exact .inl ⟨h0, rfl⟩
      · rename_i h0
        refine .inr ⟨h0, ?_⟩
        split at h
        · rename_i hg
          cases h
          refine .inl ⟨?_, rfl⟩
          cases compares <;> simp_all
        · rename_i hg
          cases h
          refine .inr ⟨?_, rfl⟩
          cases compares <;> simp_all

/-- Everything the acceptance of hardware interrupts can do (R411, R362). -/
theorem acceptRequests_cases (s : State) (saved : Word) :
    s.nmi = true ∧
        s.acceptRequests saved = ({ s with nmi := false, halted := false } : State).breakSeq s.nmiVector saved ∨
      s.nmi = false ∧ s.int = none ∧ s.acceptRequests saved = s ∨
      (∃ v, s.nmi = false ∧ s.int = some v ∧ s.psw.ie = true ∧
        s.acceptRequests saved = ({ s with int := none, halted := false } : State).breakSeq v saved) ∨
      ∃ v, s.nmi = false ∧ s.int = some v ∧ s.psw.ie = false ∧ s.acceptRequests saved = { s with halted := false } := by
  cases hn : s.nmi with
  | true => exact .inl ⟨rfl, by simp only [acceptRequests, hn, if_true]⟩
  | false =>
    cases hi : s.int with
    | none => exact .inr (.inl ⟨rfl, rfl, by simp [acceptRequests, hn, hi]⟩)
    | some v =>
      cases he : s.psw.ie with
      | true => exact .inr (.inr (.inl ⟨v, rfl, rfl, rfl, by simp [acceptRequests, hn, hi, he]⟩))
      | false => exact .inr (.inr (.inr ⟨v, rfl, rfl, rfl, by simp [acceptRequests, hn, hi, he]⟩))

/-- What follows a prefix is nothing (R86). -/
theorem finish_prefix {s : State} {i : Instr} {armed : Bool} (h : isPrefix i = true) : s.finish i armed = s := by
  simp [finish, h]

/-- What follows an instruction that is still in progress is a pause (R145). -/
theorem finish_pause {s : State} {i j : Instr} {armed : Bool} (h : isPrefix i = false) (hp : s.inProgress = some j) :
    s.finish i armed = s.pause := by
  simp [finish, h, hp]

/-- What follows an instruction that has ended is the boundary (R411). -/
theorem finish_boundary {s : State} {i : Instr} {armed : Bool} (h : isPrefix i = false) (hp : s.inProgress = none) :
    s.finish i armed = s.boundary armed := by
  simp [finish, h, hp]

/-- Everything a boundary can do (R410 to R412): nothing with the window open; in the emulation mode a note of the break
that is due; in native mode the break, then the hardware interrupts. -/
theorem boundary_cases (s : State) (armed : Bool) :
    s.inhibit = true ∧ s.boundary armed = { s with prefixes := Prefixes.none } ∨
      s.inhibit = false ∧ s.emulating = true ∧
        s.boundary armed = { s with prefixes := Prefixes.none, breakDue := armed } ∨
      s.inhibit = false ∧ s.emulating = false ∧
        ∃ u, u = (if armed then ({ s with prefixes := Prefixes.none } : State).breakSeq 1 s.pc
            else { s with prefixes := Prefixes.none }) ∧ s.boundary armed = u.acceptRequests u.pc := by
  unfold boundary
  by_cases hi : s.inhibit = true
  · exact .inl ⟨hi, if_pos hi⟩
  · by_cases he : ({ s with prefixes := Prefixes.none } : State).emulating = true
    · exact .inr (.inl ⟨eq_false_of_ne_true hi, he, (if_neg hi).trans (if_pos he)⟩)
    · exact .inr (.inr ⟨eq_false_of_ne_true hi, eq_false_of_ne_true he, _, rfl, (if_neg hi).trans (if_neg he)⟩)

/-- Everything a pause can do: nothing while the window was open, in the emulation mode or with no request due; else the
hardware interrupts, with the offset of the instruction's first byte (R145, R364, R412). -/
theorem pause_cases (s : State) :
    (s.window = true ∨ s.emulating = true ∨ s.requestDue = false) ∧ s.pause = s ∨
      s.window = false ∧ s.emulating = false ∧ s.requestDue = true ∧
        s.pause = ({ s with inProgress := none, prefixes := Prefixes.none } : State).acceptRequests s.start := by
  cases hw : s.window <;> cases he : s.emulating <;> cases hr : s.requestDue <;> simp [pause, hw, he, hr]

/-- Everything the RESET input does: the fields it writes, and no other (R440, R441). -/
theorem resetInput_eq (s : State) :
    s.resetInput = { s with
      ps := 0xFFFF, pc := 0, ss := 0, ds0 := 0, ds1 := 0, psw := Psw.reset, mdwe := false, xam := 0, inhibit := false
      halted := false, prefixes := Prefixes.none, start := 0, window := false, inProgress := none, breakDue := false
      stores := [] } := rfl

/-- Everything a step can answer as a next state: a look at the requests while halted, or an instruction and what
follows it. -/
theorem step_next {s t : State} (h : step s = .next t) :
    s.halted = true ∧ t = s.acceptRequests s.pc ∨
      s.halted = false ∧
        ∃ i u v, s.select = .ok (i, u) ∧ exec i u = .next v ∧ t = v.finish i s.psw.brk := by
  unfold step at h
  split at h
  · rename_i hh
    cases h
    exact .inl ⟨hh, rfl⟩
  · rename_i hh
    refine .inr ⟨by simpa using hh, ?_⟩
    split at h
    · cases h
    · rename_i i u hs
      split at h
      · rename_i v hv
        cases h
        exact ⟨i, u, v, hs, hv, rfl⟩
      · cases h
      · cases h

/-- Everything the choice of an instruction can answer: the one in progress, or a fetched one with PC past it. -/
theorem select_ok {s u : State} {i : Instr} (h : s.select = .ok (i, u)) :
    s.inProgress = some i ∧ u = { s with inProgress := none } ∨
      s.inProgress = none ∧
        ∃ rest, decode s.codeMap s.fetchBytes = .ok (i, rest) ∧ s.staleFetch (fetchLength - rest.length) = false ∧
          u = s.enter (fetchLength - rest.length) := by
  unfold select at h
  split at h
  · rename_i j hj
    cases h
    exact .inl ⟨hj, rfl⟩
  · rename_i hj
    refine .inr ⟨hj, ?_⟩
    split at h
    · cases h
    · unfold fetch at h
      split at h
      · cases h
      · cases h
      · rename_i k rest hd
        dsimp only at h
        split at h
        · cases h
        · rename_i hs
          cases h
          exact ⟨rest, hd, by simpa using hs, rfl⟩

end Sys2Proof.Machine
end

