-- ==== Sys2Proof/Tests/Slice0.lean ====
section
/-! SUPPORT. The author's own tests: the decoding of one written-out word for each instruction, single steps whose
outcomes are those of spec/95_test_vectors.md, ill-formed terms that well-formedness refuses, and for each statement
with hypotheses a state and operands that meet them. -/

open Sys2Proof Sys2Proof.Machine

namespace Sys2Proof.Tests

/-! ### Decoding: the bytes follow the encodings of spec/opcode_table.json -/

/-- Bytes, with one more byte behind them, decode to an instruction and leave that byte; the encoder gives them back. -/
def reads (m : CodeMap) (bs : List Byte) (i : Instr) : Bool :=
  (match decode m (bs ++ [0xA5]) with
   | .ok (j, [b]) => j == i && b == 0xA5
   | _ => false) && encode i == bs && i.wf m

theorem test_decode_add_to_subc : (
    reads .emuNative [0x00, 0x99, 0xA5, 0xB8] (.addRmReg .byte (.mem (.disp16 .bwIy 0xB8A5)) .bw) &&
    reads .xaNative [0x02, 0x44, 0xAC] (.addRegRm .byte .aw (.mem (.disp8 .ix 0xAC))) &&
    reads .emuNative [0x05, 0xB3, 0x1A] (.addAccImm (.word 0x1AB3)) &&
    reads .xaNative [0x81, 0xC2, 0xBA, 0x4B] (.addRmImm (.reg .dw) (.word81 0x4BBA)) &&
    reads .emuNative [0x08, 0xBD, 0xC1, 0x7C] (.orRmReg .byte (.mem (.disp16 .iy 0x7CC1)) .iy) &&
    reads .xaNative [0x0A, 0x60, 0xC8] (.orRegRm .byte .sp (.mem (.disp8 .bwIx 0xC8))) &&
    reads .emuNative [0x0D, 0xCF, 0xDE] (.orAccImm (.word 0xDECF)) &&
    reads .xaNative [0x83, 0xCE, 0xD6] (.orRmImm (.reg .ix) (.sext83 0xD6)) &&
    reads .emuNative [0x10, 0x99, 0xDD, 0x40] (.addcRmReg .byte (.mem (.disp16 .bwIy 0x40DD)) .bw) &&
    reads .xaNative [0x12, 0x44, 0xE4] (.addcRegRm .byte .aw (.mem (.disp8 .ix 0xE4))) &&
    reads .emuNative [0x15, 0xEB, 0xA2] (.addcAccImm (.word 0xA2EB)) &&
    reads .xaNative [0x83, 0xD2, 0xF2] (.addcRmImm (.reg .dw) (.sext83 0xF2)) &&
    reads .emuNative [0x18, 0xBD, 0xF9, 0x04] (.subcRmReg .byte (.mem (.disp16 .iy 0x04F9)) .iy) &&
    reads .xaNative [0x1A, 0x60, 0x00] (.subcRegRm .byte .sp (.mem (.disp8 .bwIx 0x00))) &&
    reads .emuNative [0x1D, 0x07, 0x66] (.subcAccImm (.word 0x6607)) &&
    reads .xaNative [0x81, 0xDE, 0x0E, 0x97] (.subcRmImm (.reg .ix) (.word81 0x970E))) = true := by
  decide

theorem test_decode_and_to_cmp : (
    reads .emuNative [0x20, 0x99, 0x15, 0xC8] (.andRmReg .byte (.mem (.disp16 .bwIy 0xC815)) .bw) &&
    reads .xaNative [0x22, 0x44, 0x1C] (.andRegRm .byte .aw (.mem (.disp8 .ix 0x1C))) &&
    reads .emuNative [0x25, 0x23, 0x2A] (.andAccImm (.word 0x2A23)) &&
    reads .xaNative [0x83, 0xE2, 0x2A] (.andRmImm (.reg .dw) (.sext83 0x2A)) &&
    reads .emuNative [0x28, 0xBD, 0x31, 0x8C] (.subRmReg .byte (.mem (.disp16 .iy 0x8C31)) .iy) &&
    reads .xaNative [0x2A, 0x60, 0x38] (.subRegRm .byte .sp (.mem (.disp8 .bwIx 0x38))) &&
    reads .emuNative [0x2D, 0x3F, 0xEE] (.subAccImm (.word 0xEE3F)) &&
    reads .xaNative [0x83, 0xEE, 0x46] (.subRmImm (.reg .ix) (.sext83 0x46)) &&
    reads .emuNative [0x30, 0x99, 0x4D, 0x50] (.xorRmReg .byte (.mem (.disp16 .bwIy 0x504D)) .bw) &&
    reads .xaNative [0x32, 0x44, 0x54] (.xorRegRm .byte .aw (.mem (.disp8 .ix 0x54))) &&
    reads .emuNative [0x35, 0x5B, 0xB2] (.xorAccImm (.word 0xB25B)) &&
    reads .xaNative [0x81, 0xF2, 0x62, 0xE3] (.xorRmImm (.reg .dw) (.word81 0xE362)) &&
    reads .emuNative [0x38, 0xBD, 0x69, 0x14] (.cmpRmReg .byte (.mem (.disp16 .iy 0x1469)) .iy) &&
    reads .xaNative [0x3A, 0x60, 0x70] (.cmpRegRm .byte .sp (.mem (.disp8 .bwIx 0x70))) &&
    reads .emuNative [0x3D, 0x77, 0x76] (.cmpAccImm (.word 0x7677)) &&
    reads .xaNative [0x83, 0xFE, 0x7E] (.cmpRmImm (.reg .ix) (.sext83 0x7E))) = true := by
  decide

theorem test_decode_test_to_dec : (
    reads .emuNative [0x84, 0x99, 0x85, 0xD8] (.testRmReg .byte (.mem (.disp16 .bwIy 0xD885)) .bw) &&
    reads .xaNative [0xA8, 0x8C] (.testAccImm (.byte 0x8C)) &&
    reads .emuNative [0xF7, 0x07, 0x93, 0x3A] (.testRmImm (.mem (.based .bw)) (.word 0x3A93)) &&
    reads .xaNative [0xF7, 0xD2] (.notRm .word (.reg .dw)) &&
    reads .emuNative [0xF6, 0x9D, 0xA1, 0x9C] (.negRm .byte (.mem (.disp16 .iy 0x9CA1))) &&
    reads .xaNative [0xF6, 0x60, 0xA8] (.muluRm .byte (.mem (.disp8 .bwIx 0xA8))) &&
    reads .emuNative [0xF7, 0x2B] (.mulRm .word (.mem (.based .bpIy))) &&
    reads .xaNative [0xF7, 0xF6] (.divuRm .word (.reg .ix)) &&
    reads .emuNative [0xF6, 0xB9, 0xBD, 0x60] (.divRm .byte (.mem (.disp16 .bwIy 0x60BD))) &&
    reads .xaNative [0x69, 0x44, 0xC4, 0x91, 0x2C] (.mulRegRmImm16 .aw (.mem (.disp8 .ix 0xC4)) 0x2C91) &&
    reads .emuNative [0x6B, 0x2F, 0xCB] (.mulRegRmImm8 .bp (.mem (.based .bw)) 0xCB) &&
    reads .xaNative [0x42] (.incReg .dw) &&
    reads .emuNative [0x4F] (.decReg .iy) &&
    reads .xaNative [0xFE, 0x40, 0xE0] (.incRm .byte (.mem (.disp8 .bwIx 0xE0))) &&
    reads .emuNative [0xFF, 0x0B] (.decRm .word (.mem (.based .bpIy)))) = true := by
  decide

theorem test_decode_indirect_transfers_and_stack : (
    reads .xaNative [0xFF, 0xD6] (.callRegptr .ix) &&
    reads .emuNative [0xFF, 0x91, 0xF5, 0xE8] (.callMemptr16 (.disp16 .bwIy 0xE8F5)) &&
    reads .xaNative [0xFF, 0x5C, 0xFC] (.callMemptr32 (.disp8 .ix 0xFC)) &&
    reads .emuNative [0xFF, 0xE7] (.brRegptr .iy) &&
    reads .xaNative [0xFF, 0xA2, 0x0A, 0x7B] (.brMemptr16 (.disp16 .bpIx 0x7B0A)) &&
    reads .emuNative [0xFF, 0xAD, 0x11, 0xAC] (.brMemptr32 (.disp16 .iy 0xAC11)) &&
    reads .xaNative [0xFF, 0x70, 0x18] (.pushMem (.disp8 .bwIx 0x18)) &&
    reads .emuNative [0x51] (.pushReg .cw) &&
    reads .xaNative [0x5E] (.popReg .ix) &&
    reads .emuNative [0x0E] (.pushSreg .ps) &&
    reads .xaNative [0x17] (.popSreg .ss) &&
    reads .emuNative [0x9C] (.pushPsw) &&
    reads .xaNative [0x9D] (.popPsw) &&
    reads .emuNative [0x60] (.pushR) &&
    reads .xaNative [0x61] (.popR) &&
    reads .emuNative [0x68, 0x57, 0x96] (.pushImm16 0x9657) &&
    reads .xaNative [0x6A, 0x5E] (.pushImm8 0x5E) &&
    reads .emuNative [0x8F, 0x81, 0x65, 0xF8] (.popMem (.disp16 .bwIy 0xF865)) &&
    reads .xaNative [0xC8, 0x6C, 0x29, 0x54] (.prepare 0x296C 0x54) &&
    reads .emuNative [0xC9] (.dispose)) = true := by
  decide

theorem test_decode_prefixes_adjustments_fpo2 : (
    reads .xaNative [0x26] (.segDs1) &&
    reads .emuNative [0x2E] (.segPs) &&
    reads .xaNative [0x36] (.segSs) &&
    reads .emuNative [0x3E] (.segDs0) &&
    reads .xaNative [0x27] (.adj4a) &&
    reads .emuNative [0x2F] (.adj4s) &&
    reads .xaNative [0x37] (.adjba) &&
    reads .emuNative [0x3F] (.adjbs) &&
    reads .xaNative [0x62, 0x92, 0xB2, 0x13] (.chkind .dw (.disp16 .bpIx 0x13B2)) &&
    reads .emuNative [0x64] (.repnc) &&
    reads .xaNative [0x65] (.repc) &&
    reads .emuNative [0x66, 0xC3] (.fpo2Reg 0 0 3) &&
    reads .xaNative [0x67, 0x8E, 0xCE, 0xD7] (.fpo2Mem 1 1 (.disp16 .bp 0xD7CE)) &&
    reads .emuNative [0x6C] (.inm .byte) &&
    reads .xaNative [0x6E] (.outm .byte)) = true := by
  decide

theorem test_decode_conditional_branches : (
    reads .emuNative [0x70, 0xE3] (.bv 0xE3) &&
    reads .xaNative [0x71, 0xEA] (.bnv 0xEA) &&
    reads .emuNative [0x72, 0xF1] (.bc 0xF1) &&
    reads .xaNative [0x73, 0xF8] (.bnc 0xF8) &&
    reads .emuNative [0x74, 0xFF] (.be 0xFF) &&
    reads .xaNative [0x75, 0x06] (.bne 0x06) &&
    reads .emuNative [0x76, 0x0D] (.bnh 0x0D) &&
    reads .xaNative [0x77, 0x14] (.bh 0x14) &&
    reads .emuNative [0x78, 0x1B] (.bn 0x1B) &&
    reads .xaNative [0x79, 0x22] (.bp 0x22) &&
    reads .emuNative [0x7A, 0x29] (.bpe 0x29) &&
    reads .xaNative [0x7B, 0x30] (.bpo 0x30) &&
    reads .emuNative [0x7C, 0x37] (.blt 0x37) &&
    reads .xaNative [0x7D, 0x3E] (.bge 0x3E) &&
    reads .emuNative [0x7E, 0xA5] (.ble 0xA5) &&
    reads .xaNative [0x7F, 0xAC] (.bgt 0xAC)) = true := by
  decide

theorem test_decode_loop_branches : (
    reads .emuNative [0xE0, 0xB3] (.dbnzne 0xB3) &&
    reads .xaNative [0xE1, 0xBA] (.dbnze 0xBA) &&
    reads .emuNative [0xE2, 0xC1] (.dbnz 0xC1) &&
    reads .xaNative [0xE3, 0xC8] (.bcwz 0xC8)) = true := by
  decide

theorem test_decode_exchange_move_convert : (
    reads .emuNative [0x87, 0xCB] (.xchRegReg .word .cw .bw) &&
    reads .xaNative [0x87, 0xB6, 0xD6, 0x0F] (.xchMemReg .word (.disp16 .bp 0x0FD6) .ix) &&
    reads .emuNative [0x88, 0x99, 0xDD, 0x40] (.movRmReg .byte (.mem (.disp16 .bwIy 0x40DD)) .bw) &&
    reads .xaNative [0x8A, 0xC4] (.movRegReg .byte .aw .sp) &&
    reads .emuNative [0x8B, 0x2F] (.movRegMem .word .bp (.based .bw)) &&
    reads .xaNative [0x8C, 0xC2] (.movRmSreg (.reg .dw) .ds1) &&
    reads .emuNative [0x8D, 0xBD, 0xF9, 0x04] (.ldea .iy (.disp16 .iy 0x04F9)) &&
    reads .xaNative [0x8E, 0x50, 0x00] (.movSregRm .ss (.mem (.disp8 .bwIx 0x00))) &&
    reads .emuNative [0x90] (.nop) &&
    reads .xaNative [0x96] (.xchAwReg .ix) &&
    reads .emuNative [0x98] (.cvtbw) &&
    reads .xaNative [0x99] (.cvtwl) &&
    reads .emuNative [0x9A, 0x23, 0x2A, 0x5B, 0xB2] (.callFar 0x2A23 0xB25B) &&
    reads .xaNative [0x9B] (.poll) &&
    reads .emuNative [0x9E] (.movPswAh) &&
    reads .xaNative [0x9F] (.movAhPsw) &&
    reads .emuNative [0xA1, 0x3F, 0xEE] (.movAccDmem .word 0xEE3F) &&
    reads .xaNative [0xA3, 0x46, 0x1F] (.movDmemAcc .word 0x1F46)) = true := by
  decide

theorem test_decode_block_and_immediate_move : (
    reads .emuNative [0xA4] (.movbk .byte) &&
    reads .xaNative [0xA6] (.cmpbk .byte) &&
    reads .emuNative [0xAB] (.stm .word) &&
    reads .xaNative [0xAD] (.ldm .word) &&
    reads .emuNative [0xAE] (.cmpm .byte) &&
    reads .xaNative [0xB4, 0x70] (.movRegImm .sp (.byte 0x70))) = true := by
  decide

theorem test_decode_rotates : (
    reads .emuNative [0xD1, 0x03] (.rolOne .word (.mem (.based .bpIy))) &&
    reads .xaNative [0xD3, 0xC6] (.rolCl .word (.reg .ix)) &&
    reads .emuNative [0xC0, 0x81, 0x85, 0xD8, 0x1D] (.rolImm .byte (.mem (.disp16 .bwIy 0xD885)) 0x1D) &&
    reads .xaNative [0xD0, 0x4C, 0x8C] (.rorOne .byte (.mem (.disp8 .ix 0x8C))) &&
    reads .emuNative [0xD3, 0x0F] (.rorCl .word (.mem (.based .bw))) &&
    reads .xaNative [0xC1, 0xCA, 0x9A] (.rorImm .word (.reg .dw) 0x9A) &&
    reads .emuNative [0xD0, 0x95, 0xA1, 0x9C] (.rolcOne .byte (.mem (.disp16 .iy 0x9CA1))) &&
    reads .xaNative [0xD2, 0x50, 0xA8] (.rolcCl .byte (.mem (.disp8 .bwIx 0xA8))) &&
    reads .emuNative [0xC1, 0x13, 0xAF] (.rolcImm .word (.mem (.based .bpIy)) 0xAF) &&
    reads .xaNative [0xD1, 0xDE] (.rorcOne .word (.reg .ix)) &&
    reads .emuNative [0xD2, 0x99, 0xBD, 0x60] (.rorcCl .byte (.mem (.disp16 .bwIy 0x60BD))) &&
    reads .xaNative [0xC0, 0x5C, 0xC4, 0x91] (.rorcImm .byte (.mem (.disp8 .ix 0xC4)) 0x91)) = true := by
  decide

theorem test_decode_shifts : (
    reads .emuNative [0xD1, 0x27] (.shlOne .word (.mem (.based .bw))) &&
    reads .xaNative [0xD3, 0xE2] (.shlCl .word (.reg .dw)) &&
    reads .emuNative [0xC0, 0xA5, 0xD9, 0x24, 0x31] (.shlImm .byte (.mem (.disp16 .iy 0x24D9)) 0x31) &&
    reads .xaNative [0xD0, 0x68, 0xE0] (.shrOne .byte (.mem (.disp8 .bwIx 0xE0))) &&
    reads .emuNative [0xD3, 0x2B] (.shrCl .word (.mem (.based .bpIy))) &&
    reads .xaNative [0xC1, 0xEE, 0xEE] (.shrImm .word (.reg .ix) 0xEE) &&
    reads .emuNative [0xD0, 0xB9, 0xF5, 0xE8] (.shraOne .byte (.mem (.disp16 .bwIy 0xE8F5))) &&
    reads .xaNative [0xD2, 0x7C, 0xFC] (.shraCl .byte (.mem (.disp8 .ix 0xFC))) &&
    reads .emuNative [0xC1, 0x3F, 0x03] (.shraImm .word (.mem (.based .bw)) 0x03)) = true := by
  decide

theorem test_decode_returns_breaks_moves : (
    reads .xaNative [0xC2, 0x0A, 0x7B] (.retPop 0x7B0A) &&
    reads .emuNative [0xC3] (.ret) &&
    reads .xaNative [0xC4, 0x60, 0x18] (.movDs1RegMem .sp (.disp8 .bwIx 0x18)) &&
    reads .emuNative [0xC5, 0x0B] (.movDs0RegMem .cw (.based .bpIy)) &&
    reads .xaNative [0xC7, 0x86, 0x26, 0x3F, 0xEE, 0xB7] (.movMemImm (.disp16 .bp 0x3F26) (.word 0xB7EE)) &&
    reads .emuNative [0xCA, 0x2D, 0x70] (.retFarPop 0x702D) &&
    reads .xaNative [0xCB] (.retFar) &&
    reads .emuNative [0xCC] (.brk3) &&
    reads .xaNative [0xCD, 0x42] (.brkImm 0x42) &&
    reads .emuNative [0xCE] (.brkv) &&
    reads .xaNative [0xCF] (.reti) &&
    reads .emuNative [0xD4, 0x0A] (.cvtbd) &&
    reads .xaNative [0xD5, 0x0A] (.cvtdb) &&
    reads .emuNative [0xD7] (.trans)) = true := by
  decide

theorem test_decode_fpo1_io_branches_control : (
    reads .xaNative [0xDC, 0xDE] (.fpo1Reg 4 3 6) &&
    reads .emuNative [0xDD, 0x27] (.fpo1Mem 5 4 (.based .bw)) &&
    reads .xaNative [0xE5, 0x7A] (.inAccImm .word 0x7A) &&
    reads .emuNative [0xE6, 0x81] (.outImmAcc .byte 0x81) &&
    reads .xaNative [0xE8, 0x88, 0xED] (.callNear 0xED88) &&
    reads .emuNative [0xE9, 0x8F, 0x1E] (.brNear 0x1E8F) &&
    reads .xaNative [0xEA, 0x96, 0x4F, 0x5E, 0xC7] (.brFar 0x4F96 0xC75E) &&
    reads .emuNative [0xEB, 0x9D] (.brShort 0x9D) &&
    reads .xaNative [0xEC] (.inAccDw .byte) &&
    reads .emuNative [0xEF] (.outDwAcc .word) &&
    reads .xaNative [0xF0] (.buslock) &&
    reads .emuNative [0xF2] (.repne) &&
    reads .xaNative [0xF3] (.rep) &&
    reads .emuNative [0xF4] (.halt) &&
    reads .xaNative [0xF5] (.not1Cy) &&
    reads .emuNative [0xF8] (.clr1Cy) &&
    reads .xaNative [0xF9] (.set1Cy) &&
    reads .emuNative [0xFA] (.di) &&
    reads .xaNative [0xFB] (.ei) &&
    reads .emuNative [0xFC] (.clr1Dir) &&
    reads .xaNative [0xFD] (.set1Dir)) = true := by
  decide

theorem test_decode_bit_instructions : (
    reads .emuNative [0x0F, 0x11, 0x03] (.test1Cl .word (.mem (.based .bpIy))) &&
    reads .xaNative [0x0F, 0x19, 0xC6, 0x06] (.test1Imm .word (.reg .ix) 0x06) &&
    reads .emuNative [0x0F, 0x12, 0x81, 0x0D, 0x90] (.clr1Cl .byte (.mem (.disp16 .bwIy 0x900D))) &&
    reads .xaNative [0x0F, 0x1A, 0x44, 0x14, 0xC1] (.clr1Imm .byte (.mem (.disp8 .ix 0x14)) 0xC1) &&
    reads .emuNative [0x0F, 0x15, 0x07] (.set1Cl .word (.mem (.based .bw))) &&
    reads .xaNative [0x0F, 0x1D, 0xC2, 0x22] (.set1Imm .word (.reg .dw) 0x22) &&
    reads .emuNative [0x0F, 0x16, 0x85, 0x29, 0x54] (.not1Cl .byte (.mem (.disp16 .iy 0x5429))) &&
    reads .xaNative [0x0F, 0x1E, 0x40, 0x30, 0x85] (.not1Imm .byte (.mem (.disp8 .bwIx 0x30)) 0x85)) = true := by
  decide

theorem test_decode_bcd_fields_modes : (
    reads .emuNative [0x0F, 0x20] (.add4s) &&
    reads .xaNative [0x0F, 0x22] (.sub4s) &&
    reads .emuNative [0x0F, 0x26] (.cmp4s) &&
    reads .xaNative [0x0F, 0x28, 0x44, 0xAC] (.rol4 (.mem (.disp8 .ix 0xAC))) &&
    reads .emuNative [0x0F, 0x2A, 0x07] (.ror4 (.mem (.based .bw))) &&
    reads .xaNative [0x0F, 0x31, 0xFA] (.insRegReg .dw .iy) &&
    reads .emuNative [0x0F, 0x33, 0xC7] (.extRegReg .iy .aw) &&
    reads .xaNative [0x0F, 0x39, 0xC4, 0xC8] (.insRegImm .sp 0xC8) &&
    reads .emuNative [0x0F, 0x3B, 0xC1, 0xCF] (.extRegImm .cw 0xCF) &&
    reads .xaNative [0x0F, 0xE0, 0xD6] (.brkxa 0xD6) &&
    reads .xaNative [0x0F, 0xF0, 0xDD] (.retxa 0xDD) &&
    reads .emuNative [0x0F, 0xFF, 0xE4] (.brkem 0xE4) &&
    reads .emulation [0xED, 0xED, 0xEB] (.calln 0xEB) &&
    reads .emulation [0xED, 0xFD] (.retem)) = true := by
  decide

theorem test_decode_undefined_codes : (
    reads .emuNative [0x63] (.undef63) &&
    reads .xaNative [0xD6] (.undefD6) &&
    reads .emuNative [0xF1] (.undefF1) &&
    reads .xaNative [0xC1, 0xB6] (.undefC0 .word 2 6) &&
    reads .emuNative [0xD0, 0xB1] (.undefD0 .byte 2 1) &&
    reads .xaNative [0xD2, 0x74] (.undefD2 .byte 1 4) &&
    reads .emuNative [0xF7, 0x0F] (.undefF6 .word 0 7) &&
    reads .xaNative [0xFF, 0xBA] (.undefFF 2 2) &&
    reads .emuNative [0xFE, 0xAD] (.undefFE 2 5 5) &&
    reads .xaNative [0x0F, 0x2F] (.undef0F 0x2F) &&
    reads .emuNative [0xD5, 0x3C] (.undefCvt .word 0x3C)) = true := by
  decide

/-! ### Single steps: the bytes, states and outcomes of spec/95_test_vectors.md -/

/-- The state the spec's vectors start from: PS = 5000H, PC = 0100H. -/
def base : State := { State.reset with ps := 0x5000, pc := 0x100 }

/-- PSW from a word, MD too. -/
def fl (w : Word) : Psw := { Psw.reset.load w with md := w.getLsbD 15 }

/-- A byte of memory. -/
def rd (t : State) (a : Nat) : Byte := t.mem.read a

/-- A word of memory. -/
def rw (t : State) (a : Nat) : Word := joinBytes (t.mem.read a) (t.mem.read (a + 1))

/-- Bytes put at a physical address. -/
def put (s : State) (a : Nat) : List Byte → State
  | [] => s
  | b :: rest => put { s with mem := s.mem.write a b } (a + 1) rest

/-- A state with its code at PS:PC and its data. -/
def placed (code : List Byte) (data : List (Nat × List Byte)) (s : State) : State :=
  data.foldl (fun s c => put s c.1 c.2) (s.loadBytes s.pc code)

/-- One step from there answers a next state that a check accepts. -/
def runs (code : List Byte) (data : List (Nat × List Byte)) (s : State) (check : State → Bool) : Bool :=
  match step (placed code data s) with
  | .next t => check t
  | _ => false

/-- One step from there is refused. -/
def refuses (code : List Byte) (data : List (Nat × List Byte)) (s : State) (r : Refusal) : Bool :=
  match step (placed code data s) with
  | .refused q => q == r
  | _ => false

theorem test_step_movRegReg : (runs [0x8B, 0xC3] [] { base with bw := 0x1234 } fun t =>
    t.aw == 0x1234 && t.pswWord == 0xF002 && t.pc == 0x102) = true := by
  decide

theorem test_step_movRmReg_alias : (runs [0x89, 0xD8] [] { base with bw := 0x1234 } fun t =>
    t.aw == 0x1234) = true := by
  decide

theorem test_step_movMemImm : (runs [0xC7, 0x06, 0x00, 0x20, 0x34, 0x12] [] base fun t =>
    rd t 0x2000 == 0x34 && rd t 0x2001 == 0x12) = true := by
  decide

theorem test_step_movRegImm_byte : (runs [0xB0, 0x05] [] { base with aw := 0x1200 } fun t =>
    t.aw == 0x1205) = true := by
  decide

theorem test_step_movSregRm : (runs [0x8E, 0xD8] [] { base with aw := 0x2000 } fun t =>
    t.ds0 == 0x2000 && t.inhibit) = true := by
  decide

theorem test_step_movPs : (refuses [0x8E, 0xC8] [] base (.undecodable .loadPs)) = true := by
  decide

theorem test_step_movRmSreg : (runs [0x8C, 0xC8] [] base fun t =>
    t.aw == 0x5000 && t.inhibit) = true := by
  decide

theorem test_step_movAccDmem : (runs [0xA1, 0x00, 0x10] [(0x1000, [0x78, 0x56])] base fun t =>
    t.aw == 0x5678) = true := by
  decide

theorem test_step_movDmemAcc : (runs [0xA2, 0x34, 0x12] [] { base with aw := 0x9C } fun t =>
    rd t 0x1234 == 0x9C) = true := by
  decide

theorem test_step_movDs1RegMem : (runs [0xC4, 0x1E, 0x00, 0x01] [(0x100, [0x78, 0x56, 0x34, 0x12])] base fun t =>
    t.bw == 0x5678 && t.ds1 == 0x1234 && t.inhibit) = true := by
  decide

theorem test_step_movDs0RegMem : (runs [0xC5, 0x36, 0x00, 0x01] [(0x100, [0x78, 0x56, 0x34, 0x12])] base fun t =>
    t.ix == 0x5678 && t.ds0 == 0x1234) = true := by
  decide

theorem test_step_movPswAh : (runs [0x9E] [] { base with aw := 0xD500, psw := fl 0xFA02 } fun t =>
    t.pswWord == 0xFAD7) = true := by
  decide

theorem test_step_ldea : (runs [0x8D, 0x46, 0x02] [] { base with bp := 0x1000 } fun t =>
    t.aw == 0x1002) = true := by
  decide

theorem test_step_trans : (runs [0xD7] [(0x203, [0x7A])] { base with bw := 0x200, aw := 3 } fun t =>
    t.al == 0x7A) = true := by
  decide

theorem test_step_xchRegReg : (runs [0x86, 0xC4] [] { base with aw := 0x12AB } fun t =>
    t.aw == 0xAB12) = true := by
  decide

theorem test_step_xchMemReg : (runs [0x86, 0x06, 0x10, 0x00] [(0x10, [0x55])] { base with aw := 0xAA } fun t =>
    t.al == 0x55 && rd t 0x10 == 0xAA) = true := by
  decide

theorem test_step_xchAwReg : (runs [0x93] [] { base with aw := 0x100, bw := 0x50 } fun t =>
    t.aw == 0x50 && t.bw == 0x100) = true := by
  decide

theorem test_step_movbk : (runs [0xA4] [(0x100, [0x11])] { base with ix := 0x100, iy := 0x200, cw := 9 } fun t =>
    rd t 0x200 == 0x11 && t.ix == 0x101 && t.iy == 0x201 && t.cw == 9) = true := by
  decide

theorem test_step_cmpbk : (runs [0xA6] [(0x300, [0x05]), (0x400, [0x07])] { base with ix := 0x300, iy := 0x400 } fun t =>
    t.pswWord == 0xF093 && t.ix == 0x301 && t.iy == 0x401) = true := by
  decide

theorem test_step_ldm : (runs [0xAC] [(0x300, [0x9A])] { base with ix := 0x300, aw := 0x1100 } fun t =>
    t.aw == 0x119A && t.ix == 0x301) = true := by
  decide

theorem test_step_stm : (runs [0xAA] [] { base with aw := 0x5A, iy := 0x400 } fun t =>
    rd t 0x400 == 0x5A && t.iy == 0x401) = true := by
  decide

theorem test_step_extRegReg : (runs [0x0F, 0x33, 0xD1] [(0x300, [0x34, 0x12])] { base with ix := 0x300, cw := 4, dw := 7 } fun t =>
    t.aw == 0x23 && t.cw == 0x0C && t.ix == 0x300) = true := by
  decide

theorem test_step_extRegImm : (runs [0x0F, 0x3B, 0xC3, 0x07] [(0x300, [0xCD, 0xAB, 0x12, 0x00])] { base with ix := 0x300, bw := 0x0C } fun t =>
    t.aw == 0x2A && t.bw == 4 && t.ix == 0x302) = true := by
  decide

theorem test_step_insRegReg : (runs [0x0F, 0x31, 0xCA] [(0x300, [0xFF, 0xFF])] { base with iy := 0x300, aw := 5, dw := 4, cw := 3 } fun t =>
    rd t 0x300 == 0x5F && rd t 0x301 == 0xFF && t.dw == 8 && t.iy == 0x300) = true := by
  decide

theorem test_step_insRegImm : (runs [0x0F, 0x39, 0xC2, 0x0C] [] { base with iy := 0x300, aw := 0xFFFF, dw := 8 } fun t =>
    rd t 0x300 == 0 && rd t 0x301 == 0xFF && rd t 0x302 == 0x1F && rd t 0x303 == 0 && t.dw == 5 && t.iy == 0x302) = true := by
  decide

theorem test_step_ext_range : (refuses [0x0F, 0x33, 0xD1] [] { base with cw := 0x10 } (.bitFieldRange)) = true := by
  decide

theorem test_step_inAccImm : (runs [0xE4, 0xDA] [] { base with ioIn := [0x3C], aw := 0x1100 } fun t =>
    t.aw == 0x113C && t.ioIn == []) = true := by
  decide

theorem test_step_inAccDw : (runs [0xEC] [] { base with ioIn := [0x81], dw := 0xDA } fun t =>
    t.al == 0x81) = true := by
  decide

theorem test_step_outImmAcc : (runs [0xE6, 0xD8] [] { base with aw := 0x41 } fun t =>
    t.ioOut == [⟨0xD8, .byte, 0x41⟩]) = true := by
  decide

theorem test_step_outDwAcc : (runs [0xEF] [] { base with dw := 0x1234, aw := 0xBEEF } fun t =>
    t.ioOut == [⟨0x1234, .word, 0xBEEF⟩]) = true := by
  decide

theorem test_step_inm : (runs [0x6C] [] { base with dw := 0xDA, iy := 0x50, ioIn := [0x7E] } fun t =>
    rd t 0x50 == 0x7E && t.iy == 0x51) = true := by
  decide

theorem test_step_outm : (runs [0x6F] [(0x50, [0x34, 0x12])] { base with dw := 0xD8, ix := 0x50 } fun t =>
    t.ioOut == [⟨0xD8, .word, 0x1234⟩] && t.ix == 0x52) = true := by
  decide

theorem test_step_add1 : (runs [0x02, 0xC3] [] { base with aw := 0x7F, bw := 1 } fun t =>
    t.aw == 0x80 && t.pswWord == 0xF892) = true := by
  decide

theorem test_step_addRmImm : (runs [0x83, 0xC3, 0xFF] [] { base with bw := 1 } fun t =>
    t.bw == 0 && t.pswWord == 0xF057) = true := by
  decide

theorem test_step_addAccImm : (runs [0x05, 0x00, 0x80] [] { base with aw := 0x8000 } fun t =>
    t.aw == 0 && t.pswWord == 0xF847) = true := by
  decide

theorem test_step_addRmReg : (runs [0x01, 0x15] [(0x50, [0xFF, 0x00])] { base with iy := 0x50, dw := 0x0102 } fun t =>
    rd t 0x50 == 0x01 && rd t 0x51 == 0x02 && t.dw == 0x102) = true := by
  decide

theorem test_step_addc1 : (runs [0x12, 0xC3] [] { base with aw := 0x0F, psw := fl 0xF003 } fun t =>
    t.aw == 0x10 && t.pswWord == 0xF012) = true := by
  decide

theorem test_step_sub1 : (runs [0x2A, 0xC3] [] { base with aw := 0, bw := 1 } fun t =>
    t.aw == 0xFF && t.pswWord == 0xF097) = true := by
  decide

theorem test_step_subc1 : (runs [0x1A, 0xC3] [] { base with aw := 0, bw := 0xFF, psw := fl 0xF003 } fun t =>
    t.aw == 0 && t.pswWord == 0xF057) = true := by
  decide

theorem test_step_cmp1 : (runs [0x3A, 0xC3] [] { base with aw := 5, bw := 7 } fun t =>
    t.aw == 5 && t.pswWord == 0xF093) = true := by
  decide

theorem test_step_cmpAccImm : (runs [0x3C, 0x02] [] { base with aw := 2 } fun t =>
    t.aw == 2 && t.pswWord == 0xF046) = true := by
  decide

theorem test_step_cmpRmReg : (runs [0x39, 0x1C] [(0x300, [0x05, 0x00])] { base with ix := 0x300, bw := 7 } fun t =>
    t.psw.cy && rd t 0x300 == 5) = true := by
  decide

theorem test_step_incReg : (runs [0x42] [] { base with dw := 0xFF, psw := fl 0xF003 } fun t =>
    t.dw == 0x100 && t.pswWord == 0xF017) = true := by
  decide

theorem test_step_incRm : (runs [0xFE, 0xC0] [] { base with aw := 0xFF } fun t =>
    t.aw == 0 && t.pswWord == 0xF056) = true := by
  decide

theorem test_step_decReg : (runs [0x4B] [] { base with bw := 1 } fun t =>
    t.bw == 0 && t.pswWord == 0xF046) = true := by
  decide

theorem test_step_decRm : (runs [0xFE, 0xC8] [] base fun t =>
    t.aw == 0xFF && t.pswWord == 0xF096) = true := by
  decide

theorem test_step_neg1 : (runs [0xF6, 0xDA] [] { base with dw := 1 } fun t =>
    t.dw == 0xFF && t.pswWord == 0xF097) = true := by
  decide

theorem test_step_notRm : (runs [0xF6, 0xD0] [] { base with aw := 0x55, psw := fl 0xF0D7 } fun t =>
    t.aw == 0xAA && t.pswWord == 0xF0D7) = true := by
  decide

theorem test_step_mulu1 : (runs [0xF6, 0xE1] [] { base with aw := 0xFF, cw := 0xFF } fun t =>
    t.aw == 0xFE01 && t.psw.cy && t.psw.v) = true := by
  decide

theorem test_step_mul1 : (runs [0xF6, 0xEB] [] { base with aw := 0x80, bw := 0x80 } fun t =>
    t.aw == 0x4000 && t.psw.cy) = true := by
  decide

theorem test_step_mulRegRmImm8 : (runs [0x6B, 0xC3, 0x0A] [] { base with bw := 7 } fun t =>
    t.aw == 0x46 && !t.psw.cy) = true := by
  decide

theorem test_step_divu1 : (runs [0xF6, 0xF2] [] { base with aw := 5, dw := 3 } fun t =>
    t.aw == 0x0201) = true := by
  decide

theorem test_step_div1 : (runs [0xF6, 0xFB] [] { base with aw := 7, bw := 0xFE } fun t =>
    t.aw == 0x01FD) = true := by
  decide

theorem test_step_add4s1 : (runs [0x0F, 0x20] [(0x300, [0x66, 0x87]), (0x400, [0x34, 0x12])] { base with cw := 4, ix := 0x300, iy := 0x400 } fun t =>
    rw t 0x400 == 0 && t.psw.cy && t.psw.z && t.ix == 0x300 && t.iy == 0x400 && t.cw == 4) = true := by
  decide

theorem test_step_sub4s1 : (runs [0x0F, 0x22] [(0x300, [0x01, 0x00]), (0x400, [0x00, 0x00])] { base with cw := 4, ix := 0x300, iy := 0x400 } fun t =>
    rw t 0x400 == 0x9999 && t.psw.cy && !t.psw.z) = true := by
  decide

theorem test_step_adj4a1 : (runs [0x27] [] { base with aw := 0x7D } fun t =>
    t.aw == 0x83 && t.psw.ac && !t.psw.cy && t.psw.s && !t.psw.z && !t.psw.p) = true := by
  decide

theorem test_step_adj4s1 : (runs [0x2F] [] { base with aw := 0x0A, psw := fl 0xF012 } fun t =>
    t.aw == 4 && t.psw.ac && !t.psw.cy) = true := by
  decide

theorem test_step_adjba1 : (runs [0x37] [] { base with aw := 0x000A } fun t =>
    t.aw == 0x0100 && t.psw.ac && t.psw.cy) = true := by
  decide

theorem test_step_adjbs : (runs [0x3F] [] { base with aw := 0x01FD, psw := fl 0xF012 } fun t =>
    t.aw == 7 && t.psw.ac && t.psw.cy) = true := by
  decide

theorem test_step_cvtbd1 : (runs [0xD4, 0x0A] [] { base with aw := 0x30 } fun t =>
    t.aw == 0x0408 && !t.psw.z && !t.psw.s && !t.psw.p) = true := by
  decide

theorem test_step_undefCvt : (refuses [0xD4, 0x0B] [] base (.undefinedCode)) = true := by
  decide

theorem test_step_cvtdb1 : (runs [0xD5, 0x0A] [] { base with aw := 0x0408 } fun t =>
    t.aw == 0x30) = true := by
  decide

theorem test_step_cvtbw : (runs [0x98] [] { base with aw := 0x0080, psw := fl 0xF0D7 } fun t =>
    t.aw == 0xFF80 && t.pswWord == 0xF0D7) = true := by
  decide

theorem test_step_cvtwl : (runs [0x99] [] { base with aw := 0x8000, dw := 1 } fun t =>
    t.dw == 0xFFFF && t.aw == 0x8000) = true := by
  decide

theorem test_step_and1 : (runs [0x22, 0xC3] [] { base with aw := 0xF0, bw := 0x3C, psw := fl 0xF803 } fun t =>
    t.aw == 0x30 && !t.psw.cy && !t.psw.v && t.psw.p && !t.psw.s && !t.psw.z) = true := by
  decide

theorem test_step_andRmImm : (runs [0x81, 0xE2, 0xFF, 0x7F] [] { base with dw := 0xFFFF } fun t =>
    t.dw == 0x7FFF && !t.psw.s && !t.psw.z && t.psw.p) = true := by
  decide

theorem test_step_or1 : (runs [0x0A, 0xC3] [] base fun t =>
    t.aw == 0 && t.psw.z && t.psw.p && !t.psw.s && !t.psw.cy) = true := by
  decide

theorem test_step_orRegRm : (runs [0x0B, 0x04] [(0x300, [0x01, 0x80])] { base with aw := 0x00F0, ix := 0x300 } fun t =>
    t.aw == 0x80F1 && t.psw.s && !t.psw.p) = true := by
  decide

theorem test_step_xor1 : (runs [0x33, 0xC9] [] { base with cw := 0x1234 } fun t =>
    t.cw == 0 && t.psw.z && t.psw.p) = true := by
  decide

theorem test_step_testAccImm : (runs [0xA8, 0x41] [] { base with aw := 0x40, psw := fl 0xF803 } fun t =>
    t.aw == 0x40 && !t.psw.z && !t.psw.s && !t.psw.p && !t.psw.cy && !t.psw.v) = true := by
  decide

theorem test_step_testRmImm : (runs [0xF6, 0xC3, 0x80] [] { base with bw := 0x7F } fun t =>
    t.psw.z && t.psw.p && t.bw == 0x7F) = true := by
  decide

theorem test_step_test1Cl : (runs [0x0F, 0x10, 0xC0] [] { base with aw := 2, cw := 1, psw := fl 0xF841 } fun t =>
    !t.psw.z && !t.psw.cy && !t.psw.v) = true := by
  decide

theorem test_step_test1Imm : (runs [0x0F, 0x18, 0xC0, 0x07] [] { base with aw := 0x7F } fun t =>
    t.psw.z) = true := by
  decide

theorem test_step_not1Imm : (runs [0x0F, 0x1E, 0xC0, 0x07] [] { base with psw := fl 0xF0D7 } fun t =>
    t.aw == 0x80 && t.pswWord == 0xF0D7) = true := by
  decide

theorem test_step_clr1Cl : (runs [0x0F, 0x12, 0xC0] [] { base with aw := 0xFF, cw := 3 } fun t =>
    t.aw == 0xF7) = true := by
  decide

theorem test_step_set1Cl : (runs [0x0F, 0x14, 0xC0] [] { base with cw := 4 } fun t =>
    t.aw == 0x10) = true := by
  decide

theorem test_step_set1Imm : (runs [0x0F, 0x1D, 0x06, 0x00, 0x03, 0x09] [] base fun t =>
    rd t 0x301 == 2 && rd t 0x300 == 0) = true := by
  decide

theorem test_step_not1Cy : (runs [0xF5] [] { base with psw := fl 0xF003 } fun t =>
    t.pswWord == 0xF002) = true := by
  decide

theorem test_step_clr1Cy : (runs [0xF8] [] { base with psw := fl 0xF0D7 } fun t =>
    t.pswWord == 0xF0D6) = true := by
  decide

theorem test_step_set1Cy : (runs [0xF9] [] base fun t =>
    t.pswWord == 0xF003) = true := by
  decide

theorem test_step_clr1Dir : (runs [0xFC] [] { base with psw := fl 0xF402 } fun t =>
    t.pswWord == 0xF002) = true := by
  decide

theorem test_step_set1Dir : (runs [0xFD] [] base fun t =>
    t.pswWord == 0xF402) = true := by
  decide

theorem test_step_shl1 : (runs [0xD0, 0xE0] [] { base with aw := 0x40 } fun t =>
    t.aw == 0x80 && !t.psw.cy && t.psw.v && t.psw.s && !t.psw.z && !t.psw.p) = true := by
  decide

theorem test_step_shlCl1 : (runs [0xD2, 0xE0] [] { base with aw := 1, cw := 8 } fun t =>
    t.aw == 0 && t.psw.cy) = true := by
  decide

theorem test_step_shlImm : (runs [0xC1, 0x25, 0x0C] [(0x300, [0x0F, 0x00])] { base with iy := 0x300 } fun t =>
    rw t 0x300 == 0xF000 && !t.psw.cy && t.psw.s) = true := by
  decide

theorem test_step_shr1 : (runs [0xD0, 0xE8] [] { base with aw := 0x81 } fun t =>
    t.aw == 0x40 && t.psw.cy && t.psw.v && !t.psw.s) = true := by
  decide

theorem test_step_shrImm : (runs [0xC1, 0xE9, 0x08] [] { base with cw := 0x1234 } fun t =>
    t.cw == 0x12 && !t.psw.cy) = true := by
  decide

theorem test_step_shraOne : (runs [0xD0, 0xF8] [] { base with aw := 0x81 } fun t =>
    t.aw == 0xC0 && t.psw.cy && !t.psw.v && t.psw.s) = true := by
  decide

theorem test_step_shraCl : (runs [0xD2, 0xFB] [] { base with bw := 0x84, cw := 2 } fun t =>
    t.bw == 0xE1 && !t.psw.cy) = true := by
  decide

theorem test_step_rolOne : (runs [0xD0, 0xC0] [] { base with aw := 0x80, psw := fl 0xF0D6 } fun t =>
    t.aw == 1 && t.pswWord == 0xF8D7) = true := by
  decide

theorem test_step_rolCl : (runs [0xD2, 0xC0] [] { base with aw := 0xA5, cw := 8 } fun t =>
    t.aw == 0xA5 && t.psw.cy) = true := by
  decide

theorem test_step_rorOne : (runs [0xD0, 0xC8] [] { base with aw := 1 } fun t =>
    t.aw == 0x80 && t.psw.cy && t.psw.v) = true := by
  decide

theorem test_step_rorImm : (runs [0xC0, 0xC8, 0x03] [] { base with aw := 5 } fun t =>
    t.aw == 0xA0 && t.psw.cy) = true := by
  decide

theorem test_step_rolcOne : (runs [0xD0, 0xD0] [] { base with aw := 0x80 } fun t =>
    t.aw == 0 && t.psw.cy && t.psw.v && !t.psw.z) = true := by
  decide

theorem test_step_rolcImm : (runs [0xC0, 0xD0, 0x09] [] { base with aw := 0x5A, psw := fl 0xF003 } fun t =>
    t.aw == 0x5A && t.psw.cy) = true := by
  decide

theorem test_step_rorcOne : (runs [0xD0, 0xD8] [] { base with aw := 1 } fun t =>
    t.aw == 0 && t.psw.cy && !t.psw.v) = true := by
  decide

theorem test_step_undefD0 : (refuses [0xD0, 0xF0] [] base (.undefinedCode)) = true := by
  decide

theorem test_step_pushReg : (runs [0x50] [] { base with sp := 0x100, aw := 0x1234 } fun t =>
    t.sp == 0xFE && rd t 0xFE == 0x34 && rd t 0xFF == 0x12) = true := by
  decide

theorem test_step_pushSp : (runs [0x54] [] { base with sp := 0x100 } fun t =>
    t.sp == 0xFE && rw t 0xFE == 0xFE) = true := by
  decide

theorem test_step_popSp : (runs [0x5C] [(0xFE, [0x00, 0x20])] { base with sp := 0xFE } fun t =>
    t.sp == 0x2000) = true := by
  decide

theorem test_step_pushMem : (runs [0xFF, 0x36, 0x00, 0x10] [(0x1000, [0xAB, 0xCD])] { base with sp := 0x100 } fun t =>
    t.sp == 0xFE && rw t 0xFE == 0xCDAB) = true := by
  decide

theorem test_step_pushSreg : (runs [0x1E] [] { base with sp := 0x100, ds0 := 0x2000 } fun t =>
    rw t 0xFE == 0x2000) = true := by
  decide

theorem test_step_pushPsw : (runs [0x9C] [] { base with sp := 0x100, psw := fl 0xF202 } fun t =>
    rw t 0xFE == 0xF202) = true := by
  decide

theorem test_step_pushImm8 : (runs [0x6A, 0x80] [] { base with sp := 0x100 } fun t =>
    rw t 0xFE == 0xFF80) = true := by
  decide

theorem test_step_pushR : (runs [0x60] [] { base with sp := 0x100, aw := 1, cw := 2, dw := 3, bw := 4, bp := 5, ix := 6, iy := 7 } fun t =>
    t.sp == 0xF0 && rw t 0xFE == 1 && rw t 0xFC == 2 && rw t 0xFA == 3 && rw t 0xF8 == 4 && rw t 0xF6 == 0x100 && rw t 0xF4 == 5 && rw t 0xF2 == 6 && rw t 0xF0 == 7) = true := by
  decide

theorem test_step_popR : (runs [0x61] [(0xF0, [0x07, 0x00, 0x06, 0x00, 0x05, 0x00, 0x99, 0x99, 0x04, 0x00, 0x03, 0x00, 0x02, 0x00, 0x01, 0x00])] { base with sp := 0xF0 } fun t =>
    t.iy == 7 && t.ix == 6 && t.bp == 5 && t.bw == 4 && t.dw == 3 && t.cw == 2 && t.aw == 1 && t.sp == 0x100) = true := by
  decide

theorem test_step_popMem : (runs [0x8F, 0x06, 0x00, 0x20] [(0x100, [0x78, 0x56])] { base with sp := 0x100 } fun t =>
    rd t 0x2000 == 0x78 && rd t 0x2001 == 0x56 && t.sp == 0x102) = true := by
  decide

theorem test_step_popSreg : (runs [0x1F] [(0x100, [0x00, 0x30])] { base with sp := 0x100 } fun t =>
    t.ds0 == 0x3000 && t.inhibit) = true := by
  decide

theorem test_step_popPsw : (runs [0x9D] [(0x100, [0xD5, 0x0A])] { base with sp := 0x100 } fun t =>
    t.pswWord == 0xFAD7) = true := by
  decide

theorem test_step_prepare : (runs [0xC8, 0x06, 0x00, 0x04] [(0x5E, [0x0C, 0x02])] { base with sp := 0x5E, bp := 0x60 } fun t =>
    t.bp == 0x5C && t.sp == 0x4E && rw t 0x5C == 0x60 && rw t 0x5A == 0x020C && rw t 0x58 == 0x60 && rw t 0x56 == 0x020C && rw t 0x54 == 0x5C) = true := by
  decide

theorem test_step_dispose : (runs [0xC9] [(0xFE, [0x00, 0x02])] { base with bp := 0xFE } fun t =>
    t.sp == 0x100 && t.bp == 0x200) = true := by
  decide

theorem test_step_callNear : (runs [0xE8, 0x07, 0x00] [] { base with sp := 0x100 } fun t =>
    rw t 0xFE == 0x103 && t.pc == 0x10A) = true := by
  decide

theorem test_step_callRegptr : (runs [0xFF, 0xD3] [] { base with sp := 0x100, bw := 0x4000 } fun t =>
    rw t 0xFE == 0x102 && t.pc == 0x4000) = true := by
  decide

theorem test_step_callFar : (runs [0x9A, 0x00, 0x01, 0x00, 0x20] [] { base with sp := 0x100, ps := 0x1000, pc := 0x10 } fun t =>
    rw t 0xFE == 0x1000 && rw t 0xFC == 0x15 && t.sp == 0xFC && t.ps == 0x2000 && t.pc == 0x100) = true := by
  decide

theorem test_step_callMemptr16 : (runs [0xFF, 0x14] [(0x300, [0x34, 0x12])] { base with sp := 0x100, ix := 0x300 } fun t =>
    rw t 0xFE == 0x102 && t.pc == 0x1234) = true := by
  decide

theorem test_step_ret : (runs [0xC3] [(0x100, [0x03, 0x01])] { base with sp := 0x100 } fun t =>
    t.pc == 0x103 && t.sp == 0x102) = true := by
  decide

theorem test_step_retPop : (runs [0xC2, 0x04, 0x00] [(0xFC, [0x03, 0x01])] { base with sp := 0xFC } fun t =>
    t.pc == 0x103 && t.sp == 0x102) = true := by
  decide

theorem test_step_retFar : (runs [0xCB] [(0xFC, [0x15, 0x00, 0x00, 0x10])] { base with sp := 0xFC } fun t =>
    t.pc == 0x15 && t.ps == 0x1000 && t.sp == 0x100) = true := by
  decide

theorem test_step_retFarPop : (runs [0xCA, 0x02, 0x00] [(0xFC, [0x15, 0x00, 0x00, 0x10])] { base with sp := 0xFC } fun t =>
    t.pc == 0x15 && t.ps == 0x1000 && t.sp == 0x102) = true := by
  decide

theorem test_step_brNear : (runs [0xE9, 0xFD, 0xFF] [] { base with pc := 0x200 } fun t =>
    t.pc == 0x200) = true := by
  decide

theorem test_step_brShort : (runs [0xEB, 0xF6] [] { base with pc := 0x200 } fun t =>
    t.pc == 0x1F8) = true := by
  decide

theorem test_step_brFar : (runs [0xEA, 0x00, 0x00, 0x00, 0xF0] [] base fun t =>
    t.ps == 0xF000 && t.pc == 0) = true := by
  decide

theorem test_step_brRegptr : (runs [0xFF, 0xE3] [] { base with bw := 0x4000 } fun t =>
    t.pc == 0x4000) = true := by
  decide

theorem test_step_brMemptr16 : (runs [0xFF, 0x27] [(0x300, [0x34, 0x12])] { base with bw := 0x300 } fun t =>
    t.pc == 0x1234) = true := by
  decide

theorem test_step_be : (runs [0x74, 0x10] [] { base with psw := fl 0xF042 } fun t =>
    t.pc == 0x112) = true := by
  decide

theorem test_step_bne : (runs [0x75, 0x10] [] { base with psw := fl 0xF042 } fun t =>
    t.pc == 0x102) = true := by
  decide

theorem test_step_blt : (runs [0x7C, 0x05] [] { base with psw := fl 0xF812 } fun t =>
    t.pc == 0x107) = true := by
  decide

theorem test_step_bc : (runs [0x72, 0x05] [] { base with psw := fl 0xF812 } fun t =>
    t.pc == 0x102) = true := by
  decide

theorem test_step_bh : (runs [0x77, 0x05] [] { base with psw := fl 0xF046 } fun t =>
    t.pc == 0x102) = true := by
  decide

theorem test_step_bnh : (runs [0x76, 0x05] [] { base with psw := fl 0xF046 } fun t =>
    t.pc == 0x107) = true := by
  decide

theorem test_step_bgt : (runs [0x7F, 0x05] [] { base with psw := fl 0xF897 } fun t =>
    t.pc == 0x107) = true := by
  decide

theorem test_step_ble : (runs [0x7E, 0x05] [] { base with psw := fl 0xF897 } fun t =>
    t.pc == 0x102) = true := by
  decide

theorem test_step_bge : (runs [0x7D, 0x05] [] { base with psw := fl 0xF812 } fun t =>
    t.pc == 0x102) = true := by
  decide

theorem test_step_bv : (runs [0x70, 0x05] [] { base with psw := fl 0xF812 } fun t =>
    t.pc == 0x107) = true := by
  decide

theorem test_step_bnv : (runs [0x71, 0x05] [] { base with psw := fl 0xF812 } fun t =>
    t.pc == 0x102) = true := by
  decide

theorem test_step_bnc : (runs [0x73, 0x05] [] { base with psw := fl 0xF003 } fun t =>
    t.pc == 0x102) = true := by
  decide

theorem test_step_bn : (runs [0x78, 0x05] [] { base with psw := fl 0xF082 } fun t =>
    t.pc == 0x107) = true := by
  decide

theorem test_step_bp : (runs [0x79, 0x05] [] { base with psw := fl 0xF082 } fun t =>
    t.pc == 0x102) = true := by
  decide

theorem test_step_bpe : (runs [0x7A, 0x05] [] { base with psw := fl 0xF006 } fun t =>
    t.pc == 0x107) = true := by
  decide

theorem test_step_bpo : (runs [0x7B, 0x05] [] { base with psw := fl 0xF006 } fun t =>
    t.pc == 0x102) = true := by
  decide

theorem test_step_bcwz : (runs [0xE3, 0x10] [] base fun t =>
    t.pc == 0x112 && t.cw == 0) = true := by
  decide

theorem test_step_dbnz : (runs [0xE2, 0xFE] [] { base with cw := 3 } fun t =>
    t.pc == 0x100 && t.cw == 2) = true := by
  decide

theorem test_step_dbnze : (runs [0xE1, 0xFC] [] { base with cw := 2 } fun t =>
    t.cw == 1 && t.pc == 0x102) = true := by
  decide

theorem test_step_dbnzne : (runs [0xE0, 0xFC] [] { base with cw := 2 } fun t =>
    t.cw == 1 && t.pc == 0xFE) = true := by
  decide

theorem test_step_brk3 : (runs [0xCC] [(0xC, [0x34, 0x12, 0x00, 0xF0])] { base with ps := 0x1000, pc := 0x200, sp := 0x100, psw := fl 0xF202 } fun t =>
    rw t 0xFE == 0xF202 && rw t 0xFC == 0x1000 && rw t 0xFA == 0x201 && t.sp == 0xFA && t.pswWord == 0xF002 && t.ps == 0xF000 && t.pc == 0x1234) = true := by
  decide

theorem test_step_brkImm : (runs [0xCD, 0x05] [(0x14, [0x34, 0x12, 0x00, 0xF0])] { base with ps := 0x1000, pc := 0x200, sp := 0x100, psw := fl 0xF202 } fun t =>
    rw t 0xFA == 0x202 && t.ps == 0xF000 && t.pc == 0x1234) = true := by
  decide

theorem test_step_brkv : (runs [0xCE] [] { base with sp := 0x100 } fun t =>
    t.pc == 0x101 && t.sp == 0x100) = true := by
  decide

theorem test_step_chkind : (runs [0x62, 0x06, 0x00, 0x04] [(0x400, [0x00, 0x00, 0x63, 0x00])] { base with aw := 0x63 } fun t =>
    t.pc == 0x104) = true := by
  decide

theorem test_step_reti : (runs [0xCF] [(0xFA, [0x01, 0x02, 0x00, 0x10, 0x02, 0xF2])] { base with sp := 0xFA } fun t =>
    t.pc == 0x201 && t.ps == 0x1000 && t.pswWord == 0xF202 && t.sp == 0x100) = true := by
  decide

theorem test_step_di : (runs [0xFA] [] { base with psw := fl 0xF202 } fun t =>
    t.pswWord == 0xF002) = true := by
  decide

theorem test_step_ei : (runs [0xFB] [] base fun t =>
    t.pswWord == 0xF202 && t.inhibit) = true := by
  decide

theorem test_step_halt : (runs [0xF4] [] base fun t =>
    t.halted && t.pc == 0x101) = true := by
  decide

theorem test_step_poll : (runs [0x9B] [] base fun t =>
    t.pc == 0x101 && t.inProgress == none) = true := by
  decide

theorem test_step_nop : (runs [0x90] [] base fun t =>
    t.pc == 0x101) = true := by
  decide

theorem test_step_fpo1Mem : (runs [0xD8, 0x34] [] base fun t =>
    t.pc == 0x102) = true := by
  decide

theorem test_step_fpo1Reg : (runs [0xD9, 0xFF] [] base fun t =>
    t.pc == 0x102) = true := by
  decide

theorem test_step_fpo2Mem : (runs [0x66, 0x2D] [] base fun t =>
    t.pc == 0x102) = true := by
  decide

theorem test_step_brkem : (runs [0x0F, 0xFF, 0x40] [(0x100, [0x00, 0x01, 0x00, 0x20])] { base with ps := 0x1000, pc := 0x200, sp := 0x100 } fun t =>
    rw t 0xFE == 0xF002 && rw t 0xFC == 0x1000 && rw t 0xFA == 0x203 && t.pswWord == 0x7002 && t.mdwe && t.ps == 0x2000 && t.pc == 0x100) = true := by
  decide

theorem test_step_brkxa : (runs [0x0F, 0xE0, 0x0A] [(0x28, [0x00, 0x02, 0x00, 0x30])] { base with cls := .xa } fun t =>
    t.ps == 0x3000 && t.pc == 0x200 && t.xaOn && t.sp == 0) = true := by
  decide

theorem test_step_retxa : (runs [0x0F, 0xF0, 0x0A] [(0x28, [0x00, 0x02, 0x00, 0x30])] { base with cls := .xa } fun t =>
    t.ps == 0x3000 && t.pc == 0x200 && !t.xaOn) = true := by
  decide

theorem test_step_int_disabled : (runs [0x90] [] { base with int := some 0x20 } fun t =>
    t.int == some 0x20 && t.pc == 0x101) = true := by
  decide

theorem test_step_int_taken : (runs [0x90] [(0x80, [0x00, 0x10, 0x00, 0x00])] { base with int := some 0x20, ps := 0x1000, pc := 0x2FF, sp := 0x100, psw := fl 0xF202 } fun t =>
    rw t 0xFE == 0xF202 && rw t 0xFC == 0x1000 && rw t 0xFA == 0x300 && t.pswWord == 0xF002 && t.ps == 0 && t.pc == 0x1000 && t.int == none) = true := by
  decide

theorem test_step_nmi : (runs [0x90] [(0x8, [0x34, 0x12, 0x00, 0xF0])] { base with nmi := true, sp := 0x100 } fun t =>
    t.ps == 0xF000 && t.pc == 0x1234 && !t.nmi && rw t 0xFA == 0x101) = true := by
  decide

theorem test_step_inhibit_holds : (runs [0x8E, 0xD8] [] { base with nmi := true } fun t =>
    t.nmi && t.pc == 0x102) = true := by
  decide

theorem test_step_single_step : (runs [0x90] [(0x4, [0x34, 0x12, 0x00, 0xF0])] { base with psw := fl 0xF102, sp := 0x100 } fun t =>
    t.pc == 0x1234 && rw t 0xFE == 0xF102 && t.pswWord == 0xF002) = true := by
  decide

/-! ### Well-formedness refuses an ill-formed term at each check -/

theorem test_wf_based_bp : MemArg.wf (.based .bp) = false ∧ MemArg.wf (.disp8 .bp 0) = true ∧
    Instr.wf .emuNative (.notRm .byte (.mem (.based .bp))) = false ∧
    Instr.wf .emuNative (.ldea .aw (.based .bp)) = false ∧
    Instr.wf .xaNative (.movRmReg .word (.mem (.based .bp)) .aw) = false := by decide

theorem test_wf_exchange_of_aw : Instr.wf .emuNative (.xchAwReg .aw) = false ∧
    Instr.wf .emuNative (.xchAwReg .cw) = true := by decide

theorem test_wf_undefined_codes : Instr.wf .emuNative (.undefFE 0 1 0) = false ∧
    Instr.wf .emuNative (.undefFE 0 2 0) = true ∧ Instr.wf .emuNative (.undefCvt .byte 0x0A) = false ∧
    Instr.wf .emuNative (.undef0F 0xFF) = false ∧ Instr.wf .xaNative (.undef0F 0xFF) = true ∧
    Instr.wf .xaNative (.undef0F 0xE0) = false ∧ Instr.wf .emuNative (.undef0F 0xE0) = true ∧
    Instr.wf .emuNative (.undef0F 0x20) = false := by decide

theorem test_wf_code_maps : Instr.wf .emulation .nop = false ∧ Instr.wf .emuNative .retem = false ∧
    Instr.wf .emulation (.calln 0) = true ∧ Instr.wf .xaNative (.brkem 0) = false ∧
    Instr.wf .emuNative (.brkxa 0) = false ∧ Instr.wf .emuNative (.retxa 0) = false ∧
    Instr.wf .xaNative (.retxa 0) = true := by decide

/-- Codes that are no instruction are refused by name. -/
theorem test_decode_refuses :
    (match decode .emuNative [0x8E, 0xC8] with | .error .loadPs => true | _ => false) = true ∧
    (match decode .emuNative [0x8D, 0xC8] with | .error .memoryOnly => true | _ => false) = true ∧
    (match decode .emuNative [0x0F, 0x31, 0x08] with | .error .registerOnly => true | _ => false) = true ∧
    (match decode .emuNative [0xC8, 0x01] with | .ok _ => false | .error _ => true) = true := by decide

/-! ### The host's two functions -/

/-- The opcode table's numbers have the first byte highest: 0F20H is ADD4S, 8000H with zeros after is ADD byte, imm. -/
theorem test_table_words : decodeTableWord 16 0x0F20 = some .add4s ∧
    decodeTableWord 16 0x8100 = some (.addRmImm (.mem (.based .bwIx)) (.word81 0)) ∧
    decodeTableWord 8 0xF4 = some .halt ∧ decodeTableWord 16 0x0FE0 = some (.brkxa 0) ∧
    decodeTableWord 16 0xEDED = some (.calln 0) ∧
    decodeTableWord 24 0x0F31C8 = some (.insRegReg .aw .cw) := by decide

theorem test_fetch_word_runs :
    (match step (State.reset.withFetchWord 8 0xF4) with | .next t => t.halted | _ => false) = true ∧
    (match step (State.reset.withFetchWord 16 0xEDFD) with | .next t => t.psw.md == false | _ => false) = true ∧
    (match step (State.reset.withFetchWord 16 0x0FE0) with | .next t => t.xaOn | _ => false) = true := by decide

/-! ### Witnesses: a state and operands that meet the hypotheses of each statement -/

/-- The state of the witnesses: SP, BP, the index and data segment registers set, and a few bytes of memory. -/
def rich : State :=
  put { base with
    aw := 0x1234, cw := 0x0102, dw := 0x0007, bw := 0x0050, sp := 0x100, bp := 0x200, ix := 0x300, iy := 0x400
    ss := 0x4000, ds0 := 0x1000, ds1 := 0x2000 } 0x10300 [0x11, 0x22, 0x33]

theorem witness_StepRunsDecodedInstruction :
    let s := placed [0x40] [] base
    s.halted = false ∧ s.inProgress = none ∧ s.emulating = false ∧ s.staleFetch 1 = false ∧
      decode s.codeMap s.fetchBytes = .ok (.incReg .aw, [0, 0, 0, 0, 0]) :=
  ⟨rfl, rfl, rfl, rfl, rfl⟩

theorem witness_StepRunsDecodedInstruction_emulation :
    let s := placed [0xED, 0xFD] [] { base with psw := fl 0x7002, mdwe := true }
    s.halted = false ∧ s.inProgress = none ∧ s.emulating = true ∧ s.interruptDue = false ∧ s.staleFetch 2 = false ∧
      decode s.codeMap s.fetchBytes = .ok (.retem, [0, 0, 0, 0]) :=
  ⟨rfl, rfl, rfl, rfl, rfl, rfl⟩

theorem witness_DecodeReadsBackEncode : Instr.wf .emuNative (.addRmImm (.mem (.disp16 .bp 0xFFFF)) (.word81 0xFFFF)) = true ∧
    Instr.wf .xaNative (.retxa 0xFF) = true ∧ Instr.wf .emulation .retem = true := by decide

/-- Each kind of code at an end of its range, each with six bytes. -/
theorem witness_UnprintedCodesAreRejected :
    CodeMap.xaNative ≠ .emulation ∧ Unprinted [0x8D, 0xFF, 0, 0, 0, 0] .memoryOnly ∧
      Unprinted [0xFF, 0xF0, 0, 0, 0, 0] .memoryOnly ∧ Unprinted [0xC6, 0xB8, 0, 0, 0, 0] .reservedField ∧
      Unprinted [0x0F, 0x1F, 0xC8, 0, 0, 0] .reservedField ∧ Unprinted [0x0F, 0x39, 0xC8, 0, 0, 0] .reservedField ∧
      Unprinted [0x8C, 0x20, 0, 0, 0, 0] .reservedBit ∧ Unprinted [0x0F, 0x3B, 0xBF, 0, 0, 0] .registerOnly ∧
      Unprinted [0x8E, 0xC8, 0, 0, 0, 0] .loadPs :=
  ⟨by decide, .memoryOnly _ _ _ (by decide) (by decide), .memoryOnlyFF _ _ (by decide) (by decide),
    .reservedField _ _ _ (by decide) (by decide) (by decide), .reservedField3 _ _ _ (by decide) (by decide),
    .reservedFieldImm _ _ _ (by decide) (by decide) (by decide), .reservedBit _ _ _ (by decide) (by decide),
    .registerOnly _ _ _ (by decide) (by decide), .loadPs _ _ (by decide) (by decide)⟩

theorem witness_UnprintedCodesAreRejected_step :
    let s := placed [0x8E, 0xC8] [] base
    s.halted = false ∧ s.inProgress = none ∧ s.emulating = false ∧ Unprinted s.fetchBytes .loadPs :=
  ⟨rfl, rfl, rfl, .loadPs 0xC8 [0, 0, 0, 0] (by decide) (by decide)⟩

/-- The same codes, and one more of each kind, as the decoder answers them. -/
theorem test_unprinted_codes :
    (([[0x8D, 0xFF], [0x62, 0xC0], [0xC4, 0xC0], [0xC5, 0xFF], [0x8F, 0xC0], [0xC6, 0xC0], [0xC7, 0xC7], [0xFF, 0xD8],
        [0xFF, 0xE8], [0xFF, 0xF7]] : List (List Byte)).all fun b =>
      match decode .emuNative (b ++ [0, 0, 0, 0]) with | .error .memoryOnly => true | _ => false) = true ∧
    (([[0x8F, 0x08], [0xC6, 0xB8], [0xC7, 0x20], [0x0F, 0x10, 0x08], [0x0F, 0x1F, 0xF8], [0x0F, 0x28, 0xC8],
        [0x0F, 0x2A, 0x20], [0x0F, 0x39, 0xC8], [0x0F, 0x3B, 0xE0]] : List (List Byte)).all fun b =>
      match decode .xaNative (b ++ [0, 0, 0, 0]) with | .error .reservedField => true | _ => false) = true ∧
    (([[0x8C, 0x20], [0x8E, 0xE8]] : List (List Byte)).all fun b =>
      match decode .emuNative (b ++ [0, 0, 0, 0]) with | .error .reservedBit => true | _ => false) = true ∧
    (([[0x0F, 0x31, 0], [0x0F, 0x33, 0x40], [0x0F, 0x39, 0x80], [0x0F, 0x3B, 0xBF]] : List (List Byte)).all fun b =>
      match decode .emuNative (b ++ [0, 0, 0, 0]) with | .error .registerOnly => true | _ => false) = true := by decide

theorem witness_WordsAreLittleEndian : base.NormalAddresses ∧ (0xFFFE : Word) ≠ 0xFFFF := by decide

theorem witness_AluWritesResultAndFlags :
    AluForm rich (.addRmReg .byte (.reg .aw) .cw) .add .byte (.reg .aw) (rich.reg .byte .cw) ∧
      AluForm rich (.xorRmImm (.mem (.direct 0xFFFF)) (.sext83 0x80)) .xor .word (.mem (.direct 0xFFFF)) (sext16 0x80) ∧
      AluOp.add ≠ .cmp ∧ AluOp.xor ≠ .cmp :=
  ⟨.rmReg .add _ _ _, .imm83 .xor _ _, by decide, by decide⟩

theorem witness_CompareAndTestWriteOnlyFlags :
    AluForm rich (.cmpAccImm (.byte 0xFF)) .cmp .byte (.reg .aw) 0xFF ∧
      TestForm rich (.testRmImm (.mem (.based .ix)) (.word 0)) .word (.mem (.based .ix)) 0 :=
  ⟨.accByte .cmp _, .immWord _ _⟩

theorem witness_IncrementKeepsCarry : CountForm (.incReg .sp) true .word (.reg .sp) ∧
    CountForm (.decRm .byte (.mem (.direct 0))) false .byte (.mem (.direct 0)) :=
  ⟨.incReg _, .decRm _ _⟩

theorem witness_MultiplicationIsExact :
    (Instr.mulRegRmImm8 .sp (.reg .aw) 0x80 = .mulRegRmImm8 .sp (.reg .aw) 0x80 ∧
      (0xFF80 : Word) = (0x80 : Byte).signExtend 16) := by decide

/-- A quotient at the end of its range in each of the four forms. -/
theorem witness_DivisionCompletesInRange :
    (let s := { base with aw := 0xFEFF, cw := 0xFF }
     (s.readRM .byte (.reg .cw)).toNat ≠ 0 ∧ s.aw.toNat / (s.readRM .byte (.reg .cw)).toNat = 255) ∧
    (let s := { base with dw := 0xFFFE, aw := 0xFFFF, cw := 0xFFFF }
     (s.readRM .word (.reg .cw)).toNat ≠ 0 ∧
       (2 ^ 16 * s.dw.toNat + s.aw.toNat) / (s.readRM .word (.reg .cw)).toNat < 2 ^ 16) ∧
    (let s := { base with aw := 0xFF81, cw := 1 }
     (s.readRM .byte (.reg .cw)).toInt ≠ 0 ∧ s.aw.toInt.tdiv (s.readRM .byte (.reg .cw)).toInt = -127) ∧
    (let s := { base with dw := 0, aw := 0x7FFF, cw := 1 }
     (s.readRM .word (.reg .cw)).toInt ≠ 0 ∧
       (2 ^ 16 * s.dw.toInt + s.aw.toNat).tdiv (s.readRM .word (.reg .cw)).toInt = 32767) := by decide

theorem witness_DivideErrorEntersVectorZero :
    (base.readRM .byte (.reg .cw)).toNat = 0 ∧ (base.readRM .word (.reg .cw)).toInt = 0 ∧
      (let s := { base with aw := 0x100, cw := 1 }
       2 ^ Width.byte.bits ≤ (s.dividend .byte).toNat / (s.readRM .byte (.reg .cw)).toNat) ∧
      (let s := { base with aw := 0xFF80, cw := 1 }
       ¬ ((s.signedDividend .byte).tdiv (s.readRM .byte (.reg .cw)).toInt).natAbs < 2 ^ (Width.byte.bits - 1)) := by
  decide

theorem witness_ShiftByCountCompletes :
    (clForm .shl .byte (.reg .aw) = clForm .shl .byte (.reg .aw) ∧ (0x02 : Byte) = rich.cl) ∧ rich.cl ≠ 0 ∧
      (0xFF : Byte) ≠ 0 ∧ base.cl = 0 := by decide

theorem witness_BitInstructionsActOnOneBit :
    BitForm rich (.not1Imm .word (.reg .sp) 0xFF) (fun b => !b) .word (.reg .sp) 0xFF ∧
      BitForm rich (.set1Cl .byte (.mem (.direct 0))) (fun _ => true) .byte (.mem (.direct 0)) rich.cl ∧
      (Instr.test1Imm .byte (.reg .aw) 7 = .test1Imm .byte (.reg .aw) 7) :=
  ⟨.not1Imm _ _ _, .set1Cl _ _, rfl⟩

theorem witness_FlagInstructionsWriteOneFlag : CodeMap.emuNative ≠ .emulation ∧ CodeMap.xaNative ≠ .emulation := by decide

theorem witness_DigitRotationsComplete : (RM.reg .sp ≠ .reg .aw) ∧ (RM.mem (.direct 0) ≠ .reg .aw) := by decide

/-- CL at the four ends of the two clauses. -/
theorem witness_BcdStringsComplete :
    (let s := { base with cw := 1 }
     1 ≤ s.cl.toNat ∧ s.cl.toNat ≤ 254) ∧
    (let s := { base with cw := 254 }
     1 ≤ s.cl.toNat ∧ s.cl.toNat ≤ 254) ∧
    base.cl = 0 ∧ ({ base with cw := 255 } : State).cl = 255 := by decide

/-- Two digits in each string, the strings two bytes apart. -/
theorem witness_BcdDecimals :
    let s := put { base with cw := 2, ix := 0x10, iy := 0x12 } 0x10 [0x99, 0, 0x01]
    1 ≤ s.cl.toNat ∧ s.cl.toNat ≤ 254 ∧ DigitsOk s ∧ s.NormalAddresses ∧ StringsApart s := by
  refine ⟨by decide, by decide, ?_, by decide, ?_⟩
  · intro k h
    have h : k < 1 := h
    have e : k = 0 := by omega
    subst e
    decide
  · rintro k h ⟨j, hj, e⟩
    have h : k < 1 := h
    have hj : j < 1 := hj
    have ek : k = 0 := by omega
    have ej : j = 0 := by omega
    subst ek ej
    revert e
    decide

theorem witness_MoveWritesItsDestination :
    MoveForm rich (.movRegImm .sp (.byte 5)) .byte (.reg .sp) 5 ∧
      MoveForm rich (.movDmemAcc .word 0xFFFF) .word (.mem (.direct 0xFFFF)) (rich.reg .word .aw) :=
  ⟨.regByte _ _, .dmemAcc _ _⟩

theorem witness_ExchangeSwapsOperands : (Reg.cw ≠ .aw) ∧ (Reg.cw ≠ .bw) ∧ (Reg.sp ≠ .aw) := by decide

/-- Each `mem` row with BP and one without, each `mod` column, the direct address; an override and none. -/
theorem witness_AddressTableAndFlagMovesComplete :
    OffsetForm rich (.direct 0xFFFF) 0xFFFF .ds0 ∧ OffsetForm rich (.based .bwIy) (rich.bw + rich.iy) .ds0 ∧
      OffsetForm rich (.disp8 .bp 0x80) (rich.bp + 0xFF80) .ss ∧
      OffsetForm rich (.disp16 .bpIx 0xFFFF) (rich.bp + rich.ix + 0xFFFF) .ss ∧ rich.prefixes.override = none ∧
      ({ rich with prefixes := { Prefixes.none with override := some .ps } } : State).prefixes.override = some .ps :=
  ⟨.direct _, .based .bwIy, .disp8 0x80 .bp, .disp16 _ .bpIx, rfl, rfl⟩

/-- For `OneBlockElementCompletes` and `PortTransfersComplete`, with an answer ready and with none. -/
theorem witness_NoRepeatPrefix :
    rich.prefixes.repeated = none ∧ ({ rich with ioIn := [7, 8] } : State).ioIn = 7 :: [8] ∧ rich.ioIn = [] := by decide

/-- IN under a repeat prefix reads its port all the same. -/
theorem test_in_under_repeat :
    runs [0xF3] [] base (fun t => t.prefixes.repeated == some .rep) = true ∧
      runs [0xE4, 0x21] [] { base with ioIn := [0x5A], prefixes := { Prefixes.none with repeated := some .rep } }
        (fun t => t.al == 0x5A && t.ioIn == [] && t.prefixes == Prefixes.none) = true := by decide

theorem witness_RepeatRunsElementsWhileCountLasts :
    BlockForm (.cmpm .word) true ∧ BlockForm (.movbk .byte) false ∧
      (let s := { rich with prefixes := { Prefixes.none with repeated := some .repnc } }
       s.prefixes.repeated = some .repnc ∧ s.inProgress = none ∧ s.cw ≠ 0 ∧
         ({ s with cw := 0 } : State).cw = 0 ∧ s.cw - 1 ≠ 0 ∧ ({ s with cw := 1 } : State).cw - 1 = 0) :=
  ⟨.cmpm _, .movbk _, by decide⟩

/-- Bit offset and length operand at 15, and each of them at 16. -/
theorem witness_ExtractLoadsTheField :
    ExtForm rich (.extRegImm .cw 0x0F) .cw 15 ∧ ExtForm rich (.extRegReg .cw .dw) .cw (rich.reg8 .dw).toNat ∧
      (({ rich with cw := 15 } : State).reg8 .cw).toNat ≤ 15 ∧ 15 < (({ rich with cw := 16 } : State).reg8 .cw).toNat ∧
      15 < (({ rich with dw := 16 } : State).reg8 .dw).toNat :=
  ⟨.imm _ _, .reg _ _, by decide, by decide, by decide⟩

theorem witness_InsertStoresTheField :
    InsForm rich (.insRegImm .bw 0xFF) .bw 15 ∧ InsForm rich (.insRegReg .cw .dw) .cw (rich.reg8 .dw).toNat ∧
      rich.NormalAddresses ∧ (rich.reg8 .cw).toNat ≤ 15 ∧ (rich.reg8 .dw).toNat ≤ 15 ∧ 15 < (rich.reg8 .bw).toNat :=
  ⟨.imm _ _, .reg _ _, by decide, by decide, by decide, by decide⟩

theorem witness_PushStoresOneWord :
    PushForm rich (.pushReg .sp) (rich.sp - 2) ∧ PushForm rich (.pushReg .aw) rich.aw ∧ PushForm rich .pushPsw rich.pswWord :=
  ⟨.reg .sp, .reg .aw, .psw⟩

theorem witness_PopLoadsTheStackTop : (Reg.aw ≠ .sp) ∧ (Reg.cw ≠ .aw ∧ Reg.cw ≠ .sp) := by decide

/-- Levels 0, 1 and FFH, and a level-2 frame whose one copied word shares no byte with the three words pushed. -/
theorem witness_StackFramesAreMadeAndFreed :
    rich.NormalAddresses ∧ (0xFF : Byte) ≠ 0 ∧ (1 : Byte) ≠ 0 ∧ 1 < (2 : Byte).toNat ∧
      ∀ a, InOperand rich .word rich.ss (rich.bp - BitVec.ofNat 16 (2 * 1)) a → ¬ InStack rich ((2 : Byte).toNat + 1) a := by
  refine ⟨by decide, by decide, by decide, by decide, ?_⟩
  rintro a h ⟨k, hk, h'⟩
  have hk : k < 3 := hk
  obtain rfl | rfl | rfl : k = 0 ∨ k = 1 ∨ k = 2 := by omega
  all_goals
    obtain h | ⟨-, h⟩ := h <;> obtain h' | ⟨-, h'⟩ := h' <;> rw [h] at h' <;> revert h' <;> decide

/-- PREPARE at level 3 copies the words at BP − 2 and BP − 4, in that order. -/
theorem test_prepare_copies_frame_pointers :
    runs [0xC8, 0x00, 0x00, 0x03] [(0x401FC, [0x33, 0x44, 0x11, 0x22])] rich
      (fun t => t.readWord t.ss 0xFC == 0x2211 && t.readWord t.ss 0xFA == 0x4433 && t.readWord t.ss 0xF8 == 0xFE)
      = true := by decide

theorem witness_CallPushesTheReturnAddress :
    CallForm rich (.callNear 0xFFFF) [rich.pc] rich.ps (rich.pc + 0xFFFF) ∧
      CallForm rich (.callFar 1 2) [rich.ps, rich.pc] 2 1 :=
  ⟨.near _, .far _ _⟩

theorem witness_ReturnsAndBranchesGoToTheirTarget :
    ReturnForm rich (.retPop 0xFFFE) rich.ps (rich.readWord rich.ss rich.sp) (2 + 0xFFFE) ∧
      BranchForm rich (.brShort 0x80) rich.ps (rich.pc + 0xFF80) :=
  ⟨.nearPop _, .short 0x80⟩

/-- Each way of a condition, and CW at 1, 0 and another value. -/
theorem witness_ConditionalBranchesFollowTheirCondition :
    CondForm rich (.be 0x7F) 0x7F (rich.psw.z = true) ∧ ¬ rich.psw.z = true ∧
      CondForm rich (.bne 0x7F) 0x7F (rich.psw.z = false) ∧ rich.psw.z = false ∧
      LoopForm rich (.dbnz 0xFE) 0xFE True ∧ rich.cw ≠ 1 ∧ ({ rich with cw := 0 } : State).cw ≠ 1 ∧
      ¬ (({ rich with cw := 1 } : State).cw ≠ 1 ∧ True) :=
  ⟨.be _, by decide, .bne _, by decide, .dbnz _, by decide, by decide, by decide⟩

/-- V both ways; an index at each limit, and one beyond the upper. -/
theorem witness_SoftwareInterruptsEnterTheirVector :
    base.psw.v = false ∧ ({ base with psw := { base.psw with v := true } } : State).psw.v = true ∧
      (let s := put base 0x20 [0xFE, 0xFF, 0x03, 0x00]
       (s.readEA .word (.direct 0x20)).toInt = -2 ∧ (s.readEAHigh (.direct 0x20)).toInt = 3 ∧
         (({ s with aw := 0xFFFE } : State).reg16 .aw).toInt = -2 ∧ (({ s with aw := 3 } : State).reg16 .aw).toInt = 3 ∧
         (({ s with aw := 4 } : State).reg16 .aw).toInt = 4) := by decide

/-- For `VectorTableIsAtAddressZero` and `ReturnUndoesBreak`. -/
theorem witness_NormalAddresses : rich.NormalAddresses := by decide

/-- For the mode instructions, one state of each class. -/
theorem witness_BothClasses : rich.cls = .emu ∧ ({ rich with cls := .xa } : State).cls = .xa := by decide

theorem witness_CpuControlCompletes :
    rich.prefixes.locked = false ∧ rich.pollActive = true ∧ ({ rich with pollActive := false } : State).pollActive = false ∧
      ({ rich with prefixes := { rich.prefixes with locked := true } } : State).prefixes.locked = true := by decide

theorem witness_PrefixesPutThemselvesInForce :
    (Instr.rep = .rep ∧ (fun p : Prefixes => { p with repeated := some Rep.rep }) = fun p => { p with repeated := some .rep }) :=
  ⟨rfl, rfl⟩

/-- A boundary in the emulation mode with each cause of a refusal. -/
theorem witness_BoundaryServesInOrder_emulation :
    let s := { base with psw := fl 0x7202 }
    isPrefix .retem = false ∧ s.inProgress = none ∧ s.emulating = true ∧ s.inhibit = false ∧ s.halted = false ∧
      ({ s with nmi := true } : State).nmi = true ∧ ({ s with int := some 0 } : State).int ≠ none ∧ s.psw.ie = true := by
  decide

/-- POP PSW begun with BRK = 1 that leaves MD = 0 and BRK = 0: the break is due, and CALLN after it is refused. -/
theorem test_break_due_in_emulation_mode :
    (match step (placed [0x9D, 0xED, 0xED, 0x40] [(0, [0x02, 0x70])]
        { base with ss := 0, sp := 0, mdwe := true, psw := fl 0xF102 }) with
      | .next t =>
        t.emulating && !t.psw.brk && t.breakDue &&
          (match step t with | .refused .emulationInterrupt => true | _ => false)
      | _ => false) = true := by decide

/-- The same begun with BRK = 0: nothing is due, and CALLN runs. -/
theorem test_no_break_due_in_emulation_mode :
    (match step (placed [0x9D, 0xED, 0xED, 0x40] [(0, [0x02, 0x70])]
        { base with ss := 0, sp := 0, mdwe := true, psw := fl 0xF002 }) with
      | .next t => t.emulating && !t.breakDue && (match step t with | .next u => u.psw.md | _ => false)
      | _ => false) = true := by decide

/-- RESET in the middle of REP MOVBKB: the registers and memory keep what one element did (R441). -/
theorem test_reset_in_mid_instruction :
    (match step (placed [0xA4] [] { rich with prefixes := { Prefixes.none with repeated := some .rep } }) with
      | .next t =>
        let r := t.resetInput
        t.inProgress == some (.movbk .byte) && r.cw == 0x0101 && r.ix == 0x301 && r.iy == 0x401 && r.aw == 0x1234 &&
          r.mem == t.mem && r.inProgress == none && r.prefixes == Prefixes.none && r.ps == 0xFFFF && r.pc == 0 &&
          r.ss == 0 && r.pswWord == 0xF002
      | _ => false) = true := by decide

/-- NMI enters the vector that the environment sets. -/
theorem test_nmi_vector :
    runs [0x90] [(0x200, [0x34, 0x12, 0x78, 0x56])] { base with nmi := true, nmiVector := 0x80 }
      (fun t => t.pc == 0x1234 && t.ps == 0x5678 && !t.nmi) = true := by decide

/-- A boundary in native mode: window open, closed, each request, IE both ways. -/
theorem witness_BoundaryServesInOrder :
    isPrefix .nop = false ∧ rich.inProgress = none ∧ rich.emulating = false ∧ rich.inhibit = false ∧
      ({ rich with inhibit := true } : State).inhibit = true ∧ ({ rich with nmi := true } : State).nmi = true ∧
      (let s := { rich with int := some 0xFF, psw := { rich.psw with ie := true } }
       s.nmi = false ∧ s.int = some 0xFF ∧ s.psw.ie = true) ∧
      (let s := { rich with int := some 0 }
       s.nmi = false ∧ s.int = some 0 ∧ s.psw.ie = false) := by decide

theorem witness_HaltEndsOnRequests :
    let s := { rich with halted := true }
    s.halted = true ∧ s.nmi = false ∧ s.int = none ∧ ({ s with nmi := true } : State).nmi = true ∧
      ({ s with int := some 5 } : State).int = some 5 := by decide

theorem witness_InstructionInProgressGoesOnOrIsInterrupted :
    let s := { rich with inProgress := some (.movbk .byte) }
    s.inProgress = some (.movbk .byte) ∧ s.halted = false ∧ isPrefix (.movbk .byte) = false ∧ s.window = false ∧
      s.emulating = false ∧ ({ s with window := true } : State).window = true ∧
      ({ s with nmi := true } : State).nmi = true ∧
      ({ s with int := some 1, psw := { s.psw with ie := true } } : State).psw.ie = true := by decide

theorem witness_EveryStepKeepsTheInvariant :
    base.mem.wf ∧ base.ClassOk ∧ base.inProgress = none ∧ ∃ t, step base = .next t :=
  ⟨by decide, by decide, rfl, _, rfl⟩

theorem witness_OnlyModeInstructionsChangeMode :
    (∃ t, exec (.brkem 0) base = .next t ∧ t.psw.md ≠ base.psw.md) ∧
      (let s := { base with mdwe := true }
       ∃ t, exec .popPsw s = .next t ∧ t.psw.md ≠ s.psw.md) :=
  ⟨⟨_, rfl, by decide⟩, _, rfl, by decide⟩

theorem witness_OnlyPswLoadsSetBreak :
    let s := put base 1 [1]
    ∃ t, exec .reti (put s 5 [1]) = .next t ∧ s.psw.brk = false ∧ t.psw.brk = true :=
  ⟨_, rfl, by decide, by decide⟩

theorem witness_OnlyFarTransfersChangeProgramSegment :
    ∃ t, exec (.brFar 1 2) base = .next t ∧ t.ps ≠ base.ps :=
  ⟨_, rfl, by decide⟩

theorem witness_OnlyAddressModeInstructionsChangeXam :
    let s := { base with cls := .xa }
    ∃ t, exec (.brkxa 0xFF) s = .next t ∧ t.xam ≠ s.xam :=
  ⟨_, rfl, by decide⟩

end Sys2Proof.Tests
end

section
/-! PROOFS. The mode instructions of the two model classes (48_mode_control.md): O48 and O49. -/

namespace Sys2Proof.Machine

/-! ### The dispatch of the five mode instructions -/

theorem exec_brkem_eq (n : Byte) (s : State) : exec (.brkem n) s = execBrkem n s := rfl
theorem exec_calln_eq (n : Byte) (s : State) : exec (.calln n) s = execCalln n s := rfl
theorem exec_retem_eq (s : State) : exec .retem s = execRetem s := rfl
theorem exec_brkxa_eq (n : Byte) (s : State) : exec (.brkxa n) s = execBrkxa n s := rfl
theorem exec_retxa_eq (n : Byte) (s : State) : exec (.retxa n) s = execRetxa n s := rfl

/-! ### One bit of a word -/

/-- `bit n c` has `c` at position 0 and nothing else. -/
theorem getLsbD_bit (n : Nat) (c : Bool) (k : Nat) : (bit n c).getLsbD k = (decide (k < n ∧ k = 0) && c) := by
  cases c <;> simp [bit, BitVec.getLsbD_setWidth, Bool.and_comm]

/-- A flag shifted to position `j` of a word stands there alone. -/
theorem getLsbD_bit_shiftLeft (c : Bool) (j k : Nat) :
    (bit 16 c <<< j).getLsbD k = (decide (k < 16 ∧ k = j) && c) := by
  rw [BitVec.getLsbD_shiftLeft, getLsbD_bit]
  rcases Nat.lt_trichotomy k j with hlt | rfl | hgt
  · simp [hlt, Nat.ne_of_lt hlt]
  · simp
  · simp [Nat.ne_of_gt hgt, Nat.sub_ne_zero_of_lt hgt]

/-- On `cls = EMU` a word loaded whole into PSW, MD included, reads back with the fixed positions of R17 in place. -/
theorem toWord_load_md {c : Cls} (h : c = .emu) (f : Psw) (w : Word) :
    ({ f.load w with md := w.getLsbD 15 } : Psw).toWord c = w &&& 0x8FD5 ||| 0x7002 := by
  subst h
  apply BitVec.eq_of_getLsbD_eq
  intro k hk
  simp only [Psw.toWord, Psw.load, BitVec.getLsbD_or, BitVec.getLsbD_and, getLsbD_bit_shiftLeft, getLsbD_bit]
  have hpos : k = 0 ∨ k = 1 ∨ k = 2 ∨ k = 3 ∨ k = 4 ∨ k = 5 ∨ k = 6 ∨ k = 7 ∨ k = 8 ∨ k = 9 ∨ k = 10 ∨ k = 11 ∨
      k = 12 ∨ k = 13 ∨ k = 14 ∨ k = 15 := by omega
  rcases hpos with rfl | rfl | rfl | rfl | rfl | rfl | rfl | rfl | rfl | rfl | rfl | rfl | rfl | rfl | rfl | rfl <;>
    simp

/-! ### The entry of BRKEM and CALLN, the return of RETEM -/

/-- The entry of BRKEM and CALLN is that of a break which saves `nextPC`, but for what it does to PSW and MDWE (R382,
R384, R403). -/
theorem modeCall_eq_breakSeq (f : Psw → Psw) (g : Bool → Bool) (n : Byte) (s : State) :
    modeCall (fun u => { u with psw := f u.psw, mdwe := g u.mdwe }) n s =
      { s.breakSeq n s.pc with psw := f s.psw, mdwe := g s.mdwe } := rfl

/-- What that entry writes, and the three words it pushes. -/
theorem modeCall_enters (f : Psw → Psw) (g : Bool → Bool) (n : Byte) (s : State) :
    let t := modeCall (fun u => { u with psw := f u.psw, mdwe := g u.mdwe }) n s
    Pushed [s.pswWord, s.ps, s.pc] s t ∧
      t = { s with
        ps := s.vectorSegment n, pc := s.vectorOffset n, sp := s.sp - 6, psw := f s.psw, mdwe := g s.mdwe
        stores := [], mem := t.mem } := by
  intro t
  have ht : t = { s.breakSeq n s.pc with psw := f s.psw, mdwe := g s.mdwe } := modeCall_eq_breakSeq f g n s
  obtain ⟨hframe, hpushed⟩ := State.breakSeq_enters s n s.pc
  constructor
  · exact State.pushed_congr hpushed (by rw [ht]) (by rw [ht]) (by rw [ht])
  · rw [ht, hframe]

/-- BRKEM on `cls = EMU` (R384). -/
theorem exec_brkem_enters {s : State} (h : s.cls = .emu) (n : Byte) :
    ∃ t, exec (.brkem n) s = .next t ∧ Pushed [s.pswWord, s.ps, s.pc] s t ∧
      t = { s with
        ps := s.vectorSegment n, pc := s.vectorOffset n, sp := s.sp - 6, psw := { s.psw with md := false }
        mdwe := true, stores := [], mem := t.mem } := by
  refine ⟨_, ?_, modeCall_enters (fun f => { f with md := false }) (fun _ => true) n s⟩
  rw [exec_brkem_eq, execBrkem, h]

/-- CALLN on `cls = EMU` (R382): MDWE stays as it is. -/
theorem exec_calln_enters {s : State} (h : s.cls = .emu) (n : Byte) :
    ∃ t, exec (.calln n) s = .next t ∧ Pushed [s.pswWord, s.ps, s.pc] s t ∧
      t = { s with
        ps := s.vectorSegment n, pc := s.vectorOffset n, sp := s.sp - 6, psw := { s.psw with md := true }
        stores := [], mem := t.mem } := by
  refine ⟨_, ?_, modeCall_enters (fun f => { f with md := true }) id n s⟩
  rw [exec_calln_eq, execCalln, h]
  rfl

/-- RETEM on `cls = EMU` (R383): the popped word is PSW but for its fixed positions (D9). -/
theorem exec_retem_returns {s : State} (h : s.cls = .emu) :
    ∃ t, exec .retem s = .next t ∧ t.pswWord = s.readWord s.ss (s.sp + 4) &&& 0x8FD5 ||| 0x7002 ∧
      t = { s with
        pc := s.readWord s.ss s.sp, ps := s.readWord s.ss (s.sp + 2), sp := s.sp + 6, psw := t.psw
        mdwe := false, stores := [] } := by
  refine ⟨_, by rw [exec_retem_eq, execRetem, h], ?_, ?_⟩
  · rw [State.returnSeq_eq]
    exact toWord_load_md h _ _
  · rw [State.returnSeq_eq]
    rfl

/-! ### The jump of BRKXA and RETXA -/

/-- Writing XA sets bit 0 of XAM and keeps the others (R387, R388, U16). -/
theorem getLsbD_writeXa (x : Byte) (xa : Bool) (k : Nat) :
    (x &&& 0xFE ||| bit 8 xa).getLsbD k = if k = 0 then xa else x.getLsbD k := by
  have hmask : ∀ j < 8, (0xFE : Byte).getLsbD j = decide (j ≠ 0) := by decide
  rw [BitVec.getLsbD_or, BitVec.getLsbD_and, getLsbD_bit]
  by_cases h0 : k = 0
  · subst h0
    simp
  · by_cases hk : k < 8
    · rw [hmask k hk]
      simp [h0]
    · simp [h0, BitVec.getLsbD_of_ge x k (Nat.le_of_not_lt hk)]

/-- The jump through a vector on `cls = XA`: XA has its new value, the other bits of XAM keep theirs, and only PS, PC,
XAM and the emptied queue are written (R387, R388). -/
theorem addressModeJump_spec {s : State} (h : s.cls = .xa) (xa : Bool) (n : Byte) :
    let t := addressModeJump xa n s
    t.xaOn = xa ∧ (∀ k, k ≠ 0 → t.xam.getLsbD k = s.xam.getLsbD k) ∧
      t = { s with ps := s.vectorSegment n, pc := s.vectorOffset n, xam := t.xam, stores := [] } := by
  intro t
  have hcls : t.cls = .xa := h
  have hxam : t.xam = s.xam &&& 0xFE ||| bit 8 xa := rfl
  refine ⟨?_, fun k hk => ?_, rfl⟩
  · rw [State.xaOn, hcls, hxam, getLsbD_writeXa]
    rfl
  · rw [hxam, getLsbD_writeXa, if_neg hk]

/-- On the class that lacks them the codes of the mode instructions are undefined (R2). -/
theorem exec_mode_instructions_refused (s : State) (n : Byte) :
    (s.cls = .xa → exec (.brkem n) s = .refused .undefinedCode ∧ exec (.calln n) s = .refused .undefinedCode ∧
      exec .retem s = .refused .undefinedCode) ∧
    (s.cls = .emu → exec (.brkxa n) s = .refused .undefinedCode ∧ exec (.retxa n) s = .refused .undefinedCode) := by
  constructor
  · intro h
    rw [exec_brkem_eq, exec_calln_eq, exec_retem_eq, execBrkem, execCalln, execRetem, h]
    exact ⟨rfl, rfl, rfl⟩
  · intro h
    rw [exec_brkxa_eq, exec_retxa_eq, execBrkxa, execRetxa, h]
    exact ⟨rfl, rfl⟩

/-- Settles O48: the entry is that of a break but for PSW and MDWE, and a word loaded into PSW reads back with its fixed
bits in place. -/
theorem emulationModeInstructionsComplete : Obligations.EmulationModeInstructionsComplete := by
  intro s n
  exact ⟨fun h => ⟨exec_brkem_enters h n, exec_calln_enters h n, exec_retem_returns h⟩,
    (exec_mode_instructions_refused s n).1⟩

/-- Settles O49: both instructions are the one jump through a vector, which differs in the value of XA alone. -/
theorem addressModeInstructionsComplete : Obligations.AddressModeInstructionsComplete := by
  intro s n
  refine ⟨fun h => ⟨⟨_, ?_, addressModeJump_spec h true n⟩, ⟨_, ?_, addressModeJump_spec h false n⟩⟩,
    (exec_mode_instructions_refused s n).2⟩
  · rw [exec_brkxa_eq, execBrkxa, h]
  · rw [exec_retxa_eq, execRetxa, h]

end Sys2Proof.Machine
end

section
/-! PROOFS. The state right after reset, PSW as a word and the register halves (10_state.md): O1, O2, O3, O8 and O9. -/

namespace Sys2Proof.Machine

/-- Settles O1: the reset values of PSW and MDWE stand in `State.reset`. -/
theorem resetLeavesOnlyModeFlagSet : Obligations.ResetLeavesOnlyModeFlagSet := by
  unfold Obligations.ResetLeavesOnlyModeFlagSet
  decide

/-- Settles O2: XA is 0 after reset, so the first fetch is at the untranslated FFFF0H. -/
theorem resetFetchesAtTopOfMemory : Obligations.ResetFetchesAtTopOfMemory := by
  unfold Obligations.ResetFetchesAtTopOfMemory
  intro s
  have hxa : s.NormalAddresses := rfl
  have haddr : s.addr s.ps s.pc = 0xFFFF0 := by
    have hps : s.ps.toNat = 0xFFFF := rfl
    have hpc : s.pc.toNat = 0 := rfl
    simp only [State.addr_normal hxa, hps, hpc, Nat.reduceMul, Nat.reduceAdd, Nat.reducePow, Nat.reduceMod]
  exact ⟨rfl, rfl, rfl, rfl, rfl, hxa, rfl, rfl, rfl, haddr⟩

/-- Settles O3: after reset the memory lists nothing, the class is EMU with XAM 0, and nothing is in progress. -/
theorem invariantHoldsAtReset : Obligations.InvariantHoldsAtReset := by
  have hcls : State.reset.ClassOk := ⟨fun h => absurd h (by decide), fun _ => rfl⟩
  exact ⟨State.reset_wf, hcls, fun i h => absurd h (by simp [State.reset])⟩

/-! ### PSW as a word -/

/-- Settles O8: the word is a disjunction of the constant ones and of the flags, each alone at its place, so at every
position all terms but one vanish. -/
theorem pswWordHasItsLayout : Obligations.PswWordHasItsLayout := by
  intro c f w
  simp only [w, Psw.toWord, BitVec.getLsbD_or, getLsbD_bit_shiftLeft, getLsbD_bit]
  simp

/-! ### The halves of a word register -/

/-- A word is its high-order byte before its low-order byte. -/
theorem highByte_append_lowByte (v : Word) : highByte v ++ lowByte v = v := by
  apply BitVec.eq_of_getLsbD_eq
  intro k hk
  rw [BitVec.getLsbD_append]
  by_cases h : k < 8
  · simp [lowByte, h]
  · simp [highByte, h, show k - 8 < 8 by omega, show 8 + (k - 8) = k by omega]

/-- Settles O9: a write to a half is a register write at byte width, and a word is its two halves. -/
theorem byteHalvesAliasWordRegisters : Obligations.ByteHalvesAliasWordRegisters := by
  intro s r b v
  obtain ⟨hsame, honly, -⟩ := State.setReg_writes s .byte r b
  exact ⟨hsame, honly, (highByte_append_lowByte s.aw).symm, (highByte_append_lowByte s.cw).symm,
    (highByte_append_lowByte s.dw).symm, (highByte_append_lowByte s.bw).symm, highByte_append_lowByte v,
    highByte_append_lowByte v, highByte_append_lowByte v, highByte_append_lowByte v⟩

end Sys2Proof.Machine
end

section
/-! PROOFS. What each instruction can do to the part of the state that only a few instructions write: the effect of
`exec`, said once, on which the statements about the whole machine rest. -/

namespace Sys2Proof.Machine

/-! ### The kept part of the state -/

/-- The part of the state that only a few instructions write, or none: the class and its own registers (R2, R19, R32),
PS (R13), MD and BRK (R19, R27), the instruction in progress with its start and window (R145, R412), and what the
environment sets (R34). -/
structure Kept where
  cls : Cls
  ps : Word
  md : Bool
  brk : Bool
  mdwe : Bool
  xam : Byte
  start : Word
  window : Bool
  inProgress : Option Instr
  nmi : Bool
  int : Option Byte
  pollActive : Bool

/-- The kept part of a state. -/
def State.kept (s : State) : Kept :=
  { cls := s.cls, ps := s.ps, md := s.psw.md, brk := s.psw.brk, mdwe := s.mdwe, xam := s.xam, start := s.start
    window := s.window, inProgress := s.inProgress, nmi := s.nmi, int := s.int, pollActive := s.pollActive }

/-- From `s` to `t` the kept part becomes `k`, and a canonical memory stays canonical. -/
def Becomes (s t : State) (k : Kept) : Prop := t.kept = k ∧ (s.mem.wf → t.mem.wf)

/-- From `s` to `t` nothing of the kept part changes. -/
abbrev Quiet (s t : State) : Prop := Becomes s t s.kept

variable {s t u : State}

namespace Quiet

theorem refl : Quiet s s := ⟨rfl, id⟩

theorem trans (h : Quiet s u) (h' : Quiet u t) : Quiet s t := ⟨h'.1.trans h.1, fun hw => h'.2 (h.2 hw)⟩

/-! ### Registers, PSW, drawn values -/

theorem setReg {w : Width} {r : Reg} {v : BitVec w.bits} (h : Quiet s u) : Quiet s (u.setReg w r v) :=
  h.trans ⟨by simp [State.kept], by simp⟩

theorem setReg8 {r : Reg} {v : Byte} (h : Quiet s u) : Quiet s (u.setReg8 r v) := h.setReg (w := .byte)

theorem setReg16 {r : Reg} {v : Word} (h : Quiet s u) : Quiet s (u.setReg16 r v) := h.setReg (w := .word)

theorem setAw {v : Word} (h : Quiet s u) : Quiet s { u with aw := v } := h
theorem setDw {v : Word} (h : Quiet s u) : Quiet s { u with dw := v } := h
theorem setAwDw {v v' : Word} (h : Quiet s u) : Quiet s { u with aw := v, dw := v' } := h
theorem setSp {v : Word} (h : Quiet s u) : Quiet s { u with sp := v } := h
theorem setBp {v : Word} (h : Quiet s u) : Quiet s { u with bp := v } := h
theorem setBpSp {v v' : Word} (h : Quiet s u) : Quiet s { u with bp := v, sp := v' } := h
theorem setIx {v : Word} (h : Quiet s u) : Quiet s { u with ix := v } := h
theorem setIy {v : Word} (h : Quiet s u) : Quiet s { u with iy := v } := h
theorem setIxIy {v v' : Word} (h : Quiet s u) : Quiet s { u with ix := v, iy := v' } := h

theorem setSreg {r : DataSReg} {v : Word} (h : Quiet s u) : Quiet s (u.setSreg r v) :=
  h.trans ⟨by simp [State.kept], by simp⟩

/-- A write to PSW that keeps MD and BRK. -/
theorem setPsw {f : Psw} (h : Quiet s u) (hmd : f.md = u.psw.md) (hbrk : f.brk = u.psw.brk) :
    Quiet s { u with psw := f } :=
  h.trans ⟨by simp [State.kept, hmd, hbrk], id⟩

theorem undefAC (h : Quiet s u) : Quiet s u.undefAC := h
theorem undefCY (h : Quiet s u) : Quiet s u.undefCY := h
theorem undefV (h : Quiet s u) : Quiet s u.undefV := h
theorem undefP (h : Quiet s u) : Quiet s u.undefP := h
theorem undefS (h : Quiet s u) : Quiet s u.undefS := h
theorem undefZ (h : Quiet s u) : Quiet s u.undefZ := h
theorem undefStatus (h : Quiet s u) : Quiet s u.undefStatus := h.undefAC.undefCY.undefV.undefP.undefS.undefZ
theorem drawByte (h : Quiet s u) : Quiet s u.drawByte.2 := h
theorem drawWord (h : Quiet s u) : Quiet s u.drawWord.2 := h
theorem openWindow (h : Quiet s u) : Quiet s u.openWindow := h
theorem jump {v : Word} (h : Quiet s u) : Quiet s (u.jump v) := h
theorem branch {d : Word} (h : Quiet s u) : Quiet s (u.branch d) := h
theorem pop16 (h : Quiet s u) : Quiet s u.pop16.2 := h
theorem ioWrite {w : Width} {p : Word} {v : BitVec w.bits} (h : Quiet s u) : Quiet s (u.ioWrite w p v) := h

theorem ioRead {w : Width} {p : Word} (h : Quiet s u) : Quiet s (u.ioRead w p).2 := by
  unfold State.ioRead
  split <;> exact h

theorem setQuotient {w : Width} {q r : BitVec w.bits} (h : Quiet s u) : Quiet s (u.setQuotient w q r) := by
  cases w <;> exact h

/-! ### Stores -/

theorem writeMem {w : Width} {g o : Word} {v : BitVec w.bits} (h : Quiet s u) : Quiet s (u.writeMem w g o v) :=
  h.trans ⟨by simp [State.kept], fun hw => State.writeMem_wf hw w g o v⟩

theorem writeByte {g o : Word} {v : Byte} (h : Quiet s u) : Quiet s (u.writeByte g o v) := h.writeMem (w := .byte)

theorem writeWord {g o v : Word} (h : Quiet s u) : Quiet s (u.writeWord g o v) := h.writeMem (w := .word)

theorem writeEA {w : Width} {m : MemArg} {v : BitVec w.bits} (h : Quiet s u) : Quiet s (u.writeEA w m v) := h.writeMem

theorem writeRM {w : Width} {d : RM} {v : BitVec w.bits} (h : Quiet s u) : Quiet s (u.writeRM w d v) :=
  h.trans ⟨by simp [State.kept], fun hw => State.writeRM_wf hw w d v⟩

theorem push16 {v : Word} (h : Quiet s u) : Quiet s (u.push16 v) :=
  h.trans ⟨by simp [State.kept], fun hw => State.push16_wf hw v⟩

/-! ### Repeated operations -/

theorem foldl {α : Type} {f : State → α → State} (hf : ∀ u a, Quiet u (f u a)) (l : List α) (h : Quiet s u) :
    Quiet s (l.foldl f u) := by
  induction l generalizing u with
  | nil => exact h
  | cons a l ih => exact ih (h.trans (hf u a))

theorem iterate {f : State → State} (hf : ∀ u, Quiet u (f u)) (n : Nat) (h : Quiet s u) :
    Quiet s (Nat.repeat f n u) := by
  induction n with
  | zero => exact h
  | succ n ih => exact ih.trans (hf _)

end Quiet

/-! ### Operand forms -/

/-- A two-operand computation that writes no more than flags. -/
def QuietOp (f : BinOp) : Prop := ∀ n a b s, Quiet s (f n a b s).2

@[simp] theorem addOp_quiet : QuietOp addOp := fun _ _ _ _ => Quiet.refl.setPsw rfl rfl
@[simp] theorem addcOp_quiet : QuietOp addcOp := fun _ _ _ _ => Quiet.refl.setPsw rfl rfl
@[simp] theorem subOp_quiet : QuietOp subOp := fun _ _ _ _ => Quiet.refl.setPsw rfl rfl
@[simp] theorem subcOp_quiet : QuietOp subcOp := fun _ _ _ _ => Quiet.refl.setPsw rfl rfl

theorem logicOp_quiet {n : Nat} (r : BitVec n) (s : State) : Quiet s (logicOp r s).2 :=
  (Quiet.refl.setPsw (f := logicFlags s.psw r) rfl rfl).undefAC

@[simp] theorem andOp_quiet : QuietOp andOp := fun _ _ _ _ => logicOp_quiet _ _
@[simp] theorem orOp_quiet : QuietOp orOp := fun _ _ _ _ => logicOp_quiet _ _
@[simp] theorem xorOp_quiet : QuietOp xorOp := fun _ _ _ _ => logicOp_quiet _ _

section Operands

variable {f : BinOp} (hf : QuietOp f)
include hf

theorem binRmReg_quiet (w : Width) (d : RM) (r : Reg) (s : State) : Quiet s (binRmReg f w d r s) :=
  Quiet.writeRM (hf _ _ _ s)

theorem binRegRm_quiet (w : Width) (r : Reg) (d : RM) (s : State) : Quiet s (binRegRm f w r d s) :=
  Quiet.setReg (hf _ _ _ s)

theorem binRmVal_quiet (w : Width) (d : RM) (v : BitVec w.bits) (s : State) : Quiet s (binRmVal f w d v s) :=
  Quiet.writeRM (hf _ _ _ s)

theorem binRmImm_quiet (d : RM) (i : ImmS) (s : State) : Quiet s (binRmImm f d i s) := by
  cases i <;> exact binRmVal_quiet hf _ _ _ s

theorem binAccImm_quiet (i : Imm) (s : State) : Quiet s (binAccImm f i s) := by
  cases i <;> exact binRmVal_quiet hf _ _ _ s

theorem tstRmReg_quiet (w : Width) (d : RM) (r : Reg) (s : State) : Quiet s (tstRmReg f w d r s) := hf _ _ _ s

theorem tstRegRm_quiet (w : Width) (r : Reg) (d : RM) (s : State) : Quiet s (tstRegRm f w r d s) := hf _ _ _ s

theorem tstRmImmS_quiet (d : RM) (i : ImmS) (s : State) : Quiet s (tstRmImmS f d i s) := by
  cases i <;> exact hf _ _ _ s

theorem tstRmImm_quiet (d : RM) (i : Imm) (s : State) : Quiet s (tstRmImm f d i s) := by
  cases i <;> exact hf _ _ _ s

end Operands

theorem shiftFlags_quiet {n : Nat} (k : ShiftKind) (r : BitVec n × Bool) (s : State) : Quiet s (shiftFlags k r s) := by
  cases k
  · exact ((Quiet.refl.setPsw rfl rfl).setPsw (f := setSZP { s.psw with cy := r.2 } r.1) rfl rfl).undefAC
  · exact Quiet.refl.setPsw rfl rfl

theorem shiftOne_quiet (f : ShiftStep) (k : ShiftKind) (w : Width) (d : RM) (s : State) :
    Quiet s (shiftOne f k w d s) := by
  refine Quiet.writeRM ?_
  exact (shiftFlags_quiet k _ s).setPsw rfl rfl

theorem zeroCountFlags_quiet (k : ShiftKind) (s : State) : Quiet s (zeroCountFlags k s) := by
  cases k
  · exact Quiet.refl.undefStatus
  · exact Quiet.refl.undefCY.undefV

theorem shiftMany_quiet (f : ShiftStep) (k : ShiftKind) (w : Width) (d : RM) (c : Byte) (s : State) :
    Quiet s (shiftMany f k w d c s) := by
  refine Quiet.writeRM ?_
  split
  · exact zeroCountFlags_quiet k s
  · exact (shiftFlags_quiet k _ s).undefV

theorem bitRm_quiet (f : (n : Nat) → BitVec n → Nat → BitVec n) (w : Width) (d : RM) (b : Byte) (s : State) :
    Quiet s (bitRm f w d b s) :=
  Quiet.refl.writeRM

theorem testBit_quiet (w : Width) (d : RM) (b : Byte) (s : State) : Quiet s (testBit w d b s) :=
  (Quiet.refl.setPsw rfl rfl).undefAC.undefP.undefS

/-! ### Arithmetic -/

theorem incRM_quiet (w : Width) (d : RM) (s : State) : Quiet s (incRM w d s) := by
  refine Quiet.writeRM ?_
  exact Quiet.refl.setPsw rfl rfl

theorem decRM_quiet (w : Width) (d : RM) (s : State) : Quiet s (decRM w d s) := by
  refine Quiet.writeRM ?_
  exact Quiet.refl.setPsw rfl rfl

theorem mulFlags_quiet {o : Bool} (h : Quiet s u) : Quiet s (mulFlags o u) :=
  (h.setPsw rfl rfl).undefAC.undefP.undefS.undefZ

theorem mulThree_quiet (r : Reg) (d : RM) (k : Word) (s : State) : Quiet s (mulThree r d k s) :=
  mulFlags_quiet Quiet.refl.setReg16

/-! ### BCD -/

theorem bcdStep_quiet (f : Byte → Byte → Bool → Byte × Bool) (store : Bool) (r : BcdRun) (i : Nat) :
    Quiet r.machine (bcdStep f store r i).machine := by
  cases store
  · exact Quiet.refl
  · exact Quiet.refl.writeByte

theorem foldl_bcdStep_quiet (f : Byte → Byte → Bool → Byte × Bool) (store : Bool) (l : List Nat) (r : BcdRun) :
    Quiet r.machine (l.foldl (bcdStep f store) r).machine := by
  induction l generalizing r with
  | nil => exact Quiet.refl
  | cons i l ih => exact (bcdStep_quiet f store r i).trans (ih _)

theorem bcdFreeByte_quiet (s : State) (i : Nat) : Quiet s (bcdFreeByte s i) := Quiet.refl.drawByte.writeByte

theorem rotateDigits_quiet (f : Byte → BitVec 4 → Byte × BitVec 4) (d : RM) (s : State) :
    Quiet s (rotateDigits f d s) := by
  unfold rotateDigits
  dsimp only
  split
  · exact Quiet.refl.drawByte.setReg8
  · exact Quiet.refl.drawByte.writeRM.setReg8

theorem adjustPacked_quiet (f : Byte → Byte → Byte) (s : State) : Quiet s (adjustPacked f s) := by
  unfold adjustPacked
  exact (Quiet.refl.setReg8.setPsw (by simp [setSZP]) (by simp [setSZP])).undefV

theorem adjustUnpacked_quiet (f : Byte → Byte → Byte) (s : State) : Quiet s (adjustUnpacked f s) :=
  (Quiet.refl.setAw.setPsw rfl rfl).undefV.undefP.undefS.undefZ

theorem converted_quiet (l h : Byte) (s : State) : Quiet s (converted l h s) :=
  (Quiet.refl.setAw.setPsw rfl rfl).undefAC.undefCY.undefV

/-! ### Bit fields, input and output -/

theorem writeField_quiet (s : State) (g o : Word) (m v : BitVec 32) : Quiet s (s.writeField g o m v) := by
  refine Quiet.refl.foldl (fun u k => ?_) _
  split
  · exact Quiet.refl
  · exact Quiet.refl.writeByte

theorem inputTo_quiet (w : Width) (p : Word) (s : State) : Quiet s (inputTo w p s) := Quiet.refl.ioRead.setReg

theorem outputFrom_quiet (w : Width) (p : Word) (s : State) : Quiet s (outputFrom w p s) := Quiet.refl.ioWrite

/-! ### The elements of the block instructions -/

theorem movbkElement_quiet (w : Width) (s : State) : Quiet s (movbkElement w s) :=
  Quiet.refl.writeMem.setIxIy

theorem cmpbkElement_quiet (w : Width) (s : State) : Quiet s (cmpbkElement w s) :=
  (Quiet.refl.setPsw rfl rfl).setIxIy

theorem cmpmElement_quiet (w : Width) (s : State) : Quiet s (cmpmElement w s) := (Quiet.refl.setPsw rfl rfl).setIy

theorem ldmElement_quiet (w : Width) (s : State) : Quiet s (ldmElement w s) := Quiet.refl.setReg.setIx

theorem stmElement_quiet (w : Width) (s : State) : Quiet s (stmElement w s) := Quiet.refl.writeMem.setIy

theorem inmElement_quiet (w : Width) (s : State) : Quiet s (inmElement w s) := Quiet.refl.ioRead.writeMem.setIy

theorem outmElement_quiet (w : Width) (s : State) : Quiet s (outmElement w s) := Quiet.refl.ioWrite.setIx

/-! ### Stack and control transfer -/

theorem copyFramePointer_quiet (s : State) : Quiet s (copyFramePointer s) := Quiet.refl.push16.setBp

theorem countDown_quiet (s : State) : Quiet s (countDown s) := Quiet.refl

theorem branchIf_quiet {c : Bool} {d : Byte} (h : Quiet s u) : Quiet s (branchIf c d u) := by
  cases c
  · exact h
  · exact h.branch

/-! ### The effect of an instruction -/

/-- The instructions that load PS by themselves and neither touch PSW nor enter a vector: the far CALL, BR and RET. -/
inductive FarTransfer : Instr → Prop where
  | callFar (offset segment : Word) : FarTransfer (.callFar offset segment)
  | callMemptr32 (m : MemArg) : FarTransfer (.callMemptr32 m)
  | brFar (offset segment : Word) : FarTransfer (.brFar offset segment)
  | brMemptr32 (m : MemArg) : FarTransfer (.brMemptr32 m)
  | retFar : FarTransfer .retFar
  | retFarPop (value : Word) : FarTransfer (.retFarPop value)

/-- The instructions that enter a vector as an interrupt does, always or on a condition (R350, R201). -/
inductive VectorEntry : Instr → Prop where
  | brk3 : VectorEntry .brk3
  | brkImm (n : Byte) : VectorEntry (.brkImm n)
  | brkv : VectorEntry .brkv
  | chkind (r : Reg) (m : MemArg) : VectorEntry (.chkind r m)
  | divuRm (w : Width) (d : RM) : VectorEntry (.divuRm w d)
  | divRm (w : Width) (d : RM) : VectorEntry (.divRm w d)

/-- What an instruction can do to the kept part of the state, and that it keeps the memory canonical. -/
inductive Effect (s t : State) : Instr → Prop where
  | quiet {i : Instr} (h : Quiet s t) : Effect s t i
  | resumes {i : Instr} (hi : resumable i = true) (h : Becomes s t { s.kept with inProgress := some i }) :
      Effect s t i
  | transfers {i : Instr} (seg : Word) (hi : FarTransfer i) (h : Becomes s t { s.kept with ps := seg }) :
      Effect s t i
  | enters {i : Instr} (seg : Word) (hi : VectorEntry i)
      (h : Becomes s t { s.kept with ps := seg, brk := false }) : Effect s t i
  | popPsw (md brk : Bool) (hmd : md ≠ s.psw.md → s.cls = .emu ∧ s.mdwe = true)
      (h : Becomes s t { s.kept with md := md, brk := brk }) : Effect s t .popPsw
  | reti (seg : Word) (md brk : Bool) (hmd : md ≠ s.psw.md → s.cls = .emu ∧ s.mdwe = true)
      (h : Becomes s t { s.kept with ps := seg, md := md, brk := brk }) : Effect s t .reti
  | brkem (n : Byte) (seg : Word) (hc : s.cls = .emu)
      (h : Becomes s t { s.kept with ps := seg, md := false, mdwe := true }) : Effect s t (.brkem n)
  | calln (n : Byte) (seg : Word) (hc : s.cls = .emu) (h : Becomes s t { s.kept with ps := seg, md := true }) :
      Effect s t (.calln n)
  | retem (seg : Word) (md brk : Bool) (hc : s.cls = .emu)
      (h : Becomes s t { s.kept with ps := seg, md := md, brk := brk, mdwe := false }) : Effect s t .retem
  | brkxa (n : Byte) (seg : Word) (xam : Byte) (hc : s.cls = .xa)
      (h : Becomes s t { s.kept with ps := seg, xam := xam }) : Effect s t (.brkxa n)
  | retxa (n : Byte) (seg : Word) (xam : Byte) (hc : s.cls = .xa)
      (h : Becomes s t { s.kept with ps := seg, xam := xam }) : Effect s t (.retxa n)

/-- A property of the next state of a meaning, if it answers one. -/
def Answers (P : State → Prop) : Result → Prop
  | .next t => P t
  | .fault _ | .refused _ => True

theorem Answers.next {P : State → Prop} {r : Result} (h : Answers P r) (e : r = .next t) : P t := by
  subst e
  exact h

/-- A meaning that answers only quiet next states. -/
theorem Answers.ofQuiet {i : Instr} {r : Result} (h : Answers (Quiet s) r) : Answers (fun t => Effect s t i) r := by
  cases r with
  | next t => exact .quiet h
  | fault _ | refused _ => trivial

/-! ### Meanings that may refuse -/

theorem extField_quiet (o : Reg) (l : Nat) (s : State) : Answers (Quiet s) (extField o l s) := by
  unfold extField
  dsimp only
  split
  · trivial
  · exact Quiet.refl.setAw.setReg8.setIx.undefStatus

theorem insField_quiet (o : Reg) (l : Nat) (s : State) : Answers (Quiet s) (insField o l s) := by
  unfold insField
  dsimp only
  split
  · trivial
  · exact (writeField_quiet s _ _ _ _).setReg8.setIy.undefStatus

theorem bcdString_quiet (f : Byte → Byte → Bool → Byte × Bool) (store : Bool) (s : State) :
    Answers (Quiet s) (bcdString f store s) := by
  unfold bcdString
  split
  · trivial
  · refine Quiet.undefS (Quiet.undefP (Quiet.undefV (Quiet.undefAC ?_)))
    dsimp only
    split
    · exact (foldl_bcdStep_quiet f store _ _).setPsw rfl rfl
    · refine Quiet.undefZ (Quiet.undefCY ?_)
      split
      · exact Quiet.refl.foldl bcdFreeByte_quiet _
      · exact Quiet.refl

/-- One step of a block instruction whose element is quiet: the instruction may stay in progress (R145). -/
theorem runBlock_effect {i : Instr} (hi : resumable i = true) {compares : Bool} {element : State → State}
    (he : ∀ s, Quiet s (element s)) (s : State) :
    Answers (fun t => Effect s t i) (runBlock i compares element s) := by
  cases hr : runBlock i compares element s with
  | fault _ | refused _ => trivial
  | next t =>
    obtain ⟨-, rfl⟩ | ⟨r, -, -, ⟨-, rfl⟩ | ⟨-, ⟨-, rfl⟩ | ⟨-, rfl⟩⟩⟩ := runBlock_next hr
    · exact .quiet (he s)
    · exact .quiet Quiet.refl
    · obtain ⟨hk, hm⟩ := he s
      exact .resumes hi ⟨congrArg (fun k => { k with inProgress := some i }) hk, hm⟩
    · exact .quiet (he s)

theorem execPoll_effect (s : State) : Answers (fun t => Effect s t .poll) (execPoll s) := by
  unfold execPoll
  split
  · trivial
  · split
    · exact .quiet Quiet.refl
    · exact .resumes rfl ⟨rfl, id⟩

/-! ### Transfers between segments -/

theorem callFarTo_becomes (g o : Word) (s : State) : Becomes s (callFarTo g o s) { s.kept with ps := g } :=
  ⟨rfl, fun h => State.push16_wf (s := { s.push16 s.ps with ps := g }) (State.push16_wf h _) _⟩

theorem breakSeq_becomes (n : Byte) (p : Word) (s : State) :
    Becomes s (s.breakSeq n p) { s.kept with ps := s.vectorSegment n, brk := false } :=
  ⟨by simp [State.kept], fun h => State.breakSeq_wf h n p⟩

/-- The entry of a vector after a quiet preparation. -/
theorem Effect.breakSeq {i : Instr} (hi : VectorEntry i) (h : Quiet s u) (n : Byte) (p : Word) :
    Effect s (u.breakSeq n p) i := by
  obtain ⟨hk, hm⟩ := breakSeq_becomes n p u
  exact .enters _ hi ⟨by rw [hk, h.1], fun hw => hm (h.2 hw)⟩

theorem divideError_effect {i : Instr} (hi : VectorEntry i) (w : Width) (h : Quiet s u) :
    Effect s (divideError w u) i := by
  cases w
  · exact .breakSeq hi h.drawByte.drawByte.setQuotient 0 u.pc
  · exact .breakSeq hi h.drawWord.drawWord.setQuotient 0 u.pc

theorem execDivuRm_effect (w : Width) (d : RM) (s : State) :
    Answers (fun t => Effect s t (.divuRm w d)) (execDivuRm w d s) := by
  unfold execDivuRm
  dsimp only
  split
  · exact divideError_effect (.divuRm w d) w Quiet.refl.undefStatus
  · exact .quiet Quiet.refl.undefStatus.setQuotient

theorem execDivRm_effect (w : Width) (d : RM) (s : State) :
    Answers (fun t => Effect s t (.divRm w d)) (execDivRm w d s) := by
  unfold execDivRm
  dsimp only
  split
  · exact divideError_effect (.divRm w d) w Quiet.refl.undefStatus
  · exact .quiet Quiet.refl.undefStatus.setQuotient

theorem execBrkv_effect (s : State) : Answers (fun t => Effect s t .brkv) (execBrkv s) := by
  unfold execBrkv
  split
  · exact .breakSeq .brkv Quiet.refl 4 s.pc
  · exact .quiet Quiet.refl

theorem execChkind_effect (r : Reg) (m : MemArg) (s : State) :
    Answers (fun t => Effect s t (.chkind r m)) (execChkind r m s) := by
  unfold execChkind
  dsimp only
  split
  · exact .breakSeq (.chkind r m) Quiet.refl 5 s.pc
  · exact .quiet Quiet.refl

/-! ### Loads of PSW and the mode instructions -/

/-- A word loaded into PSW changes MD only on `cls = EMU` while MD is write-enabled (R19). -/
theorem loadPsw_md {s : State} {w : Word} (h : (s.loadPsw w).psw.md ≠ s.psw.md) : s.cls = .emu ∧ s.mdwe = true := by
  by_cases hc : (s.cls == .emu && s.mdwe) = true
  · obtain ⟨he, hw⟩ := (Bool.and_eq_true _ _).mp hc
    exact ⟨eq_of_beq he, hw⟩
  · exact absurd (if_neg hc) h

theorem execPopPsw_effect (s : State) : Answers (fun t => Effect s t .popPsw) (execPopPsw s) :=
  .popPsw _ _ (fun h => loadPsw_md (s := s.pop16.2) h) ⟨rfl, id⟩

theorem execReti_effect (s : State) : Answers (fun t => Effect s t .reti) (execReti s) := by
  unfold execReti
  rw [State.returnSeq_eq]
  exact .reti _ _ _
    (fun h => loadPsw_md (s := { s with sp := s.sp + 6, ps := s.readWord s.ss (s.sp + 2) }) h) ⟨rfl, id⟩

/-- The entry of BRKEM and CALLN on the kept part: PS from the vector, and the changes of PSW and MDWE. -/
theorem modeCall_becomes (f : Psw → Psw) (g : Bool → Bool) (n : Byte) (s : State) :
    Becomes s (modeCall (fun u => { u with psw := f u.psw, mdwe := g u.mdwe }) n s)
      { s.kept with ps := s.vectorSegment n, md := (f s.psw).md, brk := (f s.psw).brk, mdwe := g s.mdwe } := by
  rw [modeCall_eq_breakSeq]
  exact ⟨by simp [State.kept], fun h => State.breakSeq_wf h n s.pc⟩

theorem execBrkem_effect (n : Byte) (s : State) : Answers (fun t => Effect s t (.brkem n)) (execBrkem n s) := by
  cases hc : s.cls <;> simp only [execBrkem, hc]
  · exact .brkem n _ hc (modeCall_becomes (fun f => { f with md := false }) (fun _ => true) n s)
  · trivial

theorem execCalln_effect (n : Byte) (s : State) : Answers (fun t => Effect s t (.calln n)) (execCalln n s) := by
  cases hc : s.cls <;> simp only [execCalln, hc]
  · exact .calln n _ hc (modeCall_becomes (fun f => { f with md := true }) id n s)
  · trivial

theorem execRetem_effect (s : State) : Answers (fun t => Effect s t .retem) (execRetem s) := by
  cases hc : s.cls <;> simp only [execRetem, hc]
  · rw [State.returnSeq_eq]
    exact .retem _ _ _ hc ⟨rfl, id⟩
  · trivial

theorem execBrkxa_effect (n : Byte) (s : State) : Answers (fun t => Effect s t (.brkxa n)) (execBrkxa n s) := by
  cases hc : s.cls <;> simp only [execBrkxa, hc]
  · trivial
  · exact .brkxa n _ _ hc ⟨rfl, id⟩

theorem execRetxa_effect (n : Byte) (s : State) : Answers (fun t => Effect s t (.retxa n)) (execRetxa n s) := by
  cases hc : s.cls <;> simp only [execRetxa, hc]
  · trivial
  · exact .retxa n _ _ hc ⟨rfl, id⟩

/-! ### Quiet meanings that branch on an operand -/

theorem execMuluRm_quiet (w : Width) (d : RM) (s : State) : Answers (Quiet s) (execMuluRm w d s) := by
  cases w
  · exact mulFlags_quiet Quiet.refl.setAw
  · exact mulFlags_quiet Quiet.refl.setAwDw

theorem execMulRm_quiet (w : Width) (d : RM) (s : State) : Answers (Quiet s) (execMulRm w d s) := by
  cases w
  · exact mulFlags_quiet Quiet.refl.setAw
  · exact mulFlags_quiet Quiet.refl.setAwDw

theorem execNegRm_quiet (w : Width) (d : RM) (s : State) : Answers (Quiet s) (execNegRm w d s) := by
  refine Quiet.writeRM ?_
  exact Quiet.refl.setPsw rfl rfl

theorem execMovMemImm_quiet (d : MemArg) (i : Imm) (s : State) : Answers (Quiet s) (execMovMemImm d i s) := by
  cases i <;> exact Quiet.refl.writeEA

theorem execMovRegImm_quiet (d : Reg) (i : Imm) (s : State) : Answers (Quiet s) (execMovRegImm d i s) := by
  cases i <;> exact Quiet.refl.setReg

theorem execPrepare_quiet (size : Word) (level : Byte) (s : State) :
    Answers (Quiet s) (execPrepare size level s) := by
  refine Quiet.setBpSp ?_
  split
  · exact Quiet.refl.push16
  · exact (Quiet.refl.push16.iterate copyFramePointer_quiet _).push16

/-! ### Every instruction -/

/-- Everything an instruction can do to the kept part of the state. -/
theorem exec_answers_effect (s : State) : ∀ i : Instr, Answers (fun t => Effect s t i) (exec i s)
  -- the two-operand forms (R180, R250)
  | .addRmReg w d r | .addcRmReg w d r | .subRmReg w d r | .subcRmReg w d r | .andRmReg w d r | .orRmReg w d r
  | .xorRmReg w d r => .quiet (binRmReg_quiet (by simp) w d r s)
  | .addRegRm w r d | .addcRegRm w r d | .subRegRm w r d | .subcRegRm w r d | .andRegRm w r d | .orRegRm w r d
  | .xorRegRm w r d => .quiet (binRegRm_quiet (by simp) w r d s)
  | .addAccImm i | .addcAccImm i | .subAccImm i | .subcAccImm i | .andAccImm i | .orAccImm i | .xorAccImm i =>
    .quiet (binAccImm_quiet (by simp) i s)
  | .addRmImm d i | .addcRmImm d i | .subRmImm d i | .subcRmImm d i | .andRmImm d i | .orRmImm d i | .xorRmImm d i =>
    .quiet (binRmImm_quiet (by simp) d i s)
  | .cmpRmReg w d r | .testRmReg w d r => .quiet (tstRmReg_quiet (by simp) w d r s)
  | .cmpRegRm w r d => .quiet (tstRegRm_quiet (by simp) w r d s)
  | .cmpAccImm i | .testAccImm i => .quiet (tstRmImm_quiet (by simp) _ i s)
  | .cmpRmImm d i => .quiet (tstRmImmS_quiet (by simp) d i s)
  | .testRmImm d i => .quiet (tstRmImm_quiet (by simp) d i s)
  -- arithmetic (R186 to R203)
  | .notRm _ _ => .quiet Quiet.refl.writeRM
  | .negRm w d => .ofQuiet (execNegRm_quiet w d s)
  | .muluRm w d => .ofQuiet (execMuluRm_quiet w d s)
  | .mulRm w d => .ofQuiet (execMulRm_quiet w d s)
  | .divuRm w d => execDivuRm_effect w d s
  | .divRm w d => execDivRm_effect w d s
  | .mulRegRmImm16 r d k => .quiet (mulThree_quiet r d k s)
  | .mulRegRmImm8 r d k => .quiet (mulThree_quiet r d (sext16 k) s)
  | .incReg r => .quiet (incRM_quiet .word (.reg r) s)
  | .decReg r => .quiet (decRM_quiet .word (.reg r) s)
  | .incRm w d => .quiet (incRM_quiet w d s)
  | .decRm w d => .quiet (decRM_quiet w d s)
  -- BCD and conversion (R220 to R247)
  | .add4s | .sub4s | .cmp4s => .ofQuiet (bcdString_quiet _ _ s)
  | .rol4 d | .ror4 d => .quiet (rotateDigits_quiet _ d s)
  | .adj4a | .adj4s => .quiet (adjustPacked_quiet _ s)
  | .adjba | .adjbs => .quiet (adjustUnpacked_quiet _ s)
  | .cvtbd | .cvtdb => .quiet (converted_quiet _ _ s)
  | .cvtbw => .quiet Quiet.refl.setAw
  | .cvtwl => .quiet Quiet.refl.setDw
  -- bits, shifts and rotates (R260 to R282)
  | .test1Cl w d => .quiet (testBit_quiet w d s.cl s)
  | .test1Imm w d b => .quiet (testBit_quiet w d b s)
  | .clr1Cl w d | .set1Cl w d | .not1Cl w d => .quiet (bitRm_quiet _ w d s.cl s)
  | .clr1Imm w d b | .set1Imm w d b | .not1Imm w d b => .quiet (bitRm_quiet _ w d b s)
  | .not1Cy | .clr1Cy | .set1Cy | .clr1Dir | .set1Dir | .di => .quiet (Quiet.refl.setPsw rfl rfl)
  | .ei => .quiet (Quiet.refl.setPsw rfl rfl).openWindow
  | .rolOne w d | .rorOne w d | .rolcOne w d | .rorcOne w d | .shlOne w d | .shrOne w d | .shraOne w d =>
    .quiet (shiftOne_quiet _ _ w d s)
  | .rolCl w d | .rorCl w d | .rolcCl w d | .rorcCl w d | .shlCl w d | .shrCl w d | .shraCl w d =>
    .quiet (shiftMany_quiet _ _ w d s.cl s)
  | .rolImm w d c | .rorImm w d c | .rolcImm w d c | .rorcImm w d c | .shlImm w d c | .shrImm w d c
  | .shraImm w d c => .quiet (shiftMany_quiet _ _ w d c s)
  -- bit fields, input and output (R160 to R171)
  | .extRegReg o _ | .extRegImm o _ => .ofQuiet (extField_quiet o _ s)
  | .insRegReg o _ | .insRegImm o _ => .ofQuiet (insField_quiet o _ s)
  | .inAccImm w p => .quiet (inputTo_quiet w (zext16 p) s)
  | .inAccDw w => .quiet (inputTo_quiet w s.dw s)
  | .outImmAcc w p => .quiet (outputFrom_quiet w (zext16 p) s)
  | .outDwAcc w => .quiet (outputFrom_quiet w s.dw s)
  -- the block instructions (R145)
  | .movbk w => runBlock_effect rfl (movbkElement_quiet w) s
  | .cmpbk w => runBlock_effect rfl (cmpbkElement_quiet w) s
  | .cmpm w => runBlock_effect rfl (cmpmElement_quiet w) s
  | .ldm w => runBlock_effect rfl (ldmElement_quiet w) s
  | .stm w => runBlock_effect rfl (stmElement_quiet w) s
  | .inm w => runBlock_effect rfl (inmElement_quiet w) s
  | .outm w => runBlock_effect rfl (outmElement_quiet w) s
  -- data transfer (R110 to R127)
  | .movRmReg _ _ _ => .quiet Quiet.refl.writeRM
  | .movRegReg _ _ _ | .movRegMem _ _ _ | .movAccDmem _ _ => .quiet Quiet.refl.setReg
  | .movDmemAcc _ _ => .quiet Quiet.refl.writeMem
  | .movMemImm d i => .ofQuiet (execMovMemImm_quiet d i s)
  | .movRegImm d i => .ofQuiet (execMovRegImm_quiet d i s)
  | .movSregRm _ _ => .quiet Quiet.refl.setSreg.openWindow
  | .movRmSreg _ _ => .quiet Quiet.refl.writeRM.openWindow
  | .movAhPsw => .quiet Quiet.refl.drawByte.setReg8
  | .movPswAh => .quiet (Quiet.refl.setPsw rfl rfl)
  | .movDs1RegMem _ _ | .movDs0RegMem _ _ => .quiet Quiet.refl.setReg16.setSreg.openWindow
  | .ldea _ _ => .quiet Quiet.refl.setReg16
  | .trans => .quiet Quiet.refl.setReg8
  | .xchRegReg _ _ _ => .quiet Quiet.refl.setReg.setReg
  | .xchMemReg _ _ _ => .quiet Quiet.refl.writeEA.setReg
  | .xchAwReg _ => .quiet Quiet.refl.setReg16.setReg16
  -- the stack (R290 to R299, R340 to R344)
  | .pushMem _ | .pushSreg _ | .pushPsw | .pushImm16 _ | .pushImm8 _ => .quiet Quiet.refl.push16
  | .pushReg _ => .quiet Quiet.refl.setSp.writeWord
  | .pushR => .quiet (Quiet.refl.foldl (fun _ _ => Quiet.refl.push16) _)
  | .popMem _ => .quiet Quiet.refl.pop16.writeEA
  | .popReg _ => .quiet Quiet.refl.pop16.setReg16
  | .popSreg _ => .quiet Quiet.refl.pop16.setSreg.openWindow
  | .popPsw => execPopPsw_effect s
  | .popR => .quiet ⟨rfl, id⟩
  | .prepare size level => .ofQuiet (execPrepare_quiet size level s)
  | .dispose => .quiet ⟨rfl, id⟩
  -- control transfer (R300 to R336)
  | .callNear _ | .callRegptr _ | .callMemptr16 _ => .quiet Quiet.refl.push16.jump
  | .callFar _ _ | .callMemptr32 _ => .transfers _ (by constructor) (callFarTo_becomes _ _ s)
  | .ret | .retPop _ => .quiet ⟨rfl, id⟩
  | .retFar | .retFarPop _ | .brFar _ _ | .brMemptr32 _ => .transfers _ (by constructor) ⟨rfl, id⟩
  | .brNear _ | .brShort _ => .quiet Quiet.refl.branch
  | .brRegptr _ | .brMemptr16 _ => .quiet Quiet.refl.jump
  | .bv d | .bnv d | .bc d | .bnc d | .be d | .bne d | .bnh d | .bh d | .bn d | .bp d | .bpe d | .bpo d | .blt d
  | .bge d | .ble d | .bgt d | .bcwz d => .quiet (branchIf_quiet (d := d) Quiet.refl)
  | .dbnz d | .dbnze d | .dbnzne d => .quiet (branchIf_quiet (d := d) (countDown_quiet s))
  -- interrupts and CPU control (R350 to R371)
  | .brk3 => .breakSeq .brk3 Quiet.refl 3 s.pc
  | .brkImm n => .breakSeq (.brkImm n) Quiet.refl n s.pc
  | .brkv => execBrkv_effect s
  | .chkind r m => execChkind_effect r m s
  | .reti => execReti_effect s
  | .halt => .quiet ⟨rfl, id⟩
  | .poll => execPoll_effect s
  | .nop | .fpo1Reg _ _ _ | .fpo1Mem _ _ _ | .fpo2Reg _ _ _ | .fpo2Mem _ _ _ => .quiet Quiet.refl
  | .buslock | .segDs1 | .segPs | .segSs | .segDs0 | .rep | .repne | .repc | .repnc => .quiet ⟨rfl, id⟩
  -- the modes (R382 to R388)
  | .brkem n => execBrkem_effect n s
  | .calln n => execCalln_effect n s
  | .retem => execRetem_effect s
  | .brkxa n => execBrkxa_effect n s
  | .retxa n => execRetxa_effect n s
  -- undefined codes (R95)
  | .undef63 | .undefD6 | .undefF1 | .undefC0 _ _ _ | .undefD0 _ _ _ | .undefD2 _ _ _ | .undefF6 _ _ _
  | .undefFF _ _ | .undefFE _ _ _ | .undef0F _ | .undefCvt _ _ => trivial

theorem exec_effect {i : Instr} (h : exec i s = .next t) : Effect s t i := (exec_answers_effect s i).next h

end Sys2Proof.Machine
end

section
/-! PROOFS. What each instruction leaves as it was, and the invariant of every step (10_state.md): O56 to O60. -/

namespace Sys2Proof.Machine

variable {s t : State} {i : Instr}

/-! ### MD, BRK, PS, XAM and the environment -/

section
variable {k : Kept} (h : Becomes s t k)
include h

theorem Becomes.ps : t.ps = k.ps := congrArg Kept.ps h.1
theorem Becomes.md : t.psw.md = k.md := congrArg Kept.md h.1
theorem Becomes.brk : t.psw.brk = k.brk := congrArg Kept.brk h.1
theorem Becomes.xam : t.xam = k.xam := congrArg Kept.xam h.1

/-- The part of a state that no instruction writes: the class, the requests, the POLL pin, the start and the window. -/
theorem Becomes.environment (hk : k.cls = s.cls ∧ k.nmi = s.nmi ∧ k.int = s.int ∧ k.pollActive = s.pollActive ∧
      k.start = s.start ∧ k.window = s.window) :
    t.cls = s.cls ∧ t.nmi = s.nmi ∧ t.int = s.int ∧ t.pollActive = s.pollActive ∧ t.start = s.start ∧
      t.window = s.window := by
  obtain ⟨rfl, -⟩ := h
  exact hk

end

/-- Settles O57: read off the effect of the instruction; only a load of PSW and a mode instruction name MD. -/
theorem onlyModeInstructionsChangeMode : Obligations.OnlyModeInstructionsChangeMode := by
  intro i s t he hne
  cases exec_effect he with
  | quiet h | resumes _ h | transfers _ _ h | enters _ _ h | brkxa _ _ _ _ h | retxa _ _ _ _ h =>
    exact absurd h.md hne
  | popPsw md brk hmd h =>
    obtain ⟨hc, hw⟩ := hmd fun e => hne (h.md.trans e)
    exact ⟨hc, .inr (.inr (.inr ⟨.inr rfl, hw⟩))⟩
  | reti seg md brk hmd h =>
    obtain ⟨hc, hw⟩ := hmd fun e => hne (h.md.trans e)
    exact ⟨hc, .inr (.inr (.inr ⟨.inl rfl, hw⟩))⟩
  | brkem n seg hc h => exact ⟨hc, .inl ⟨n, rfl, h.md⟩⟩
  | calln n seg hc h => exact ⟨hc, .inr (.inl ⟨n, rfl, h.md⟩)⟩
  | retem seg md brk hc h => exact ⟨hc, .inr (.inr (.inl rfl))⟩

/-- Settles O58: but for the three loads of PSW, the effect of an instruction keeps BRK or resets it. -/
theorem onlyPswLoadsSetBreak : Obligations.OnlyPswLoadsSetBreak := by
  intro i s t he hclear hset
  have hne : t.psw.brk ≠ s.psw.brk := by simp [hclear, hset]
  cases exec_effect he with
  | quiet h | resumes _ h | transfers _ _ h | brkem _ _ _ h | calln _ _ _ h | brkxa _ _ _ _ h | retxa _ _ _ _ h =>
    exact absurd h.brk hne
  | enters _ _ h => exact absurd h.brk (by simpa [State.kept] using hset)
  | popPsw => exact .inl rfl
  | reti => exact .inr (.inl rfl)
  | retem => exact .inr (.inr rfl)

/-- Settles O59: the instructions of `farTransfer` and `vectorEntry` and the mode instructions are the list. -/
theorem onlyFarTransfersChangeProgramSegment : Obligations.OnlyFarTransfersChangeProgramSegment := by
  intro i s t he hne
  cases exec_effect he with
  | quiet h | resumes _ h | popPsw _ _ _ h => exact absurd h.ps hne
  | transfers _ hi _ =>
    cases hi <;> simp
  | enters _ hi _ =>
    cases hi <;> simp
  | reti | brkem | calln | retem | brkxa | retxa => simp

/-- Settles O60: no effect of an instruction names the class, a request, the POLL pin, the start or the window, and only
BRKXA and RETXA name XAM. -/
theorem onlyAddressModeInstructionsChangeXam : Obligations.OnlyAddressModeInstructionsChangeXam := by
  intro i s t he
  cases exec_effect he with
  | quiet h | resumes _ h | transfers _ _ h | enters _ _ h | popPsw _ _ _ h | reti _ _ _ _ h | brkem _ _ _ h
  | calln _ _ _ h | retem _ _ _ _ h =>
    exact ⟨fun hne => absurd h.xam hne, h.environment ⟨rfl, rfl, rfl, rfl, rfl, rfl⟩⟩
  | brkxa n _ _ _ h =>
    exact ⟨fun _ => .inl ⟨n, rfl⟩, h.environment ⟨rfl, rfl, rfl, rfl, rfl, rfl⟩⟩
  | retxa n _ _ _ h =>
    exact ⟨fun _ => .inr ⟨n, rfl⟩, h.environment ⟨rfl, rfl, rfl, rfl, rfl, rfl⟩⟩

/-! ### The invariant -/

/-- What the invariant says of the kept part: the class has only its own state, only a resumable instruction is in
progress. -/
def Kept.Ok (k : Kept) : Prop :=
  ((k.cls = .xa → k.md = true ∧ k.mdwe = false) ∧ (k.cls = .emu → k.xam = 0)) ∧
    ∀ i, k.inProgress = some i → resumable i = true

/-- The invariant depends on the memory and the kept part alone. -/
theorem inv_iff_kept (s : State) : s.Inv ↔ s.mem.wf ∧ s.kept.Ok := Iff.rfl

theorem Becomes.inv {k : Kept} (h : Becomes s t k) (hi : s.Inv) (hk : k.Ok) : t.Inv :=
  (inv_iff_kept t).2 ⟨h.2 hi.1, h.1 ▸ hk⟩

/-- Every instruction keeps the invariant. -/
theorem exec_keeps_inv (he : exec i s = .next t) (hi : s.Inv) : t.Inv := by
  obtain ⟨-, ⟨hxa, hemu⟩, hp⟩ := id hi
  cases exec_effect he with
  | quiet h | transfers _ _ h | enters _ _ h => exact h.inv hi ⟨⟨hxa, hemu⟩, hp⟩
  | resumes hr h => exact h.inv hi ⟨⟨hxa, hemu⟩, fun j hj => by cases hj; exact hr⟩
  | popPsw md brk hmd h | reti _ md brk hmd h =>
    have hsame : s.cls = .xa → md = s.psw.md := fun hc =>
      Decidable.byContradiction fun hne => absurd ((hmd hne).1.symm.trans hc) (by decide)
    exact h.inv hi ⟨⟨fun hc => ⟨(hsame hc).trans (hxa hc).1, (hxa hc).2⟩, hemu⟩, hp⟩
  | brkem _ _ hc h | calln _ _ hc h | retem _ _ _ hc h =>
    exact h.inv hi ⟨⟨fun hx => absurd (hc.symm.trans hx) (by decide), hemu⟩, hp⟩
  | brkxa _ _ _ hc h | retxa _ _ _ hc h =>
    exact h.inv hi ⟨⟨hxa, fun hx => absurd (hc.symm.trans hx) (by decide)⟩, hp⟩

/-- The entry of a vector keeps the invariant. -/
theorem breakSeq_keeps_inv (hi : s.Inv) (n : Byte) (p : Word) : (s.breakSeq n p).Inv :=
  (breakSeq_becomes n p s).inv hi hi.2

/-- The acceptance of hardware interrupts keeps the invariant. -/
theorem acceptRequests_keeps_inv (hi : s.Inv) (p : Word) : (s.acceptRequests p).Inv := by
  obtain ⟨-, h⟩ | ⟨-, -, h⟩ | ⟨v, -, -, -, h⟩ | ⟨v, -, -, -, h⟩ := acceptRequests_cases s p <;> rw [h]
  · refine breakSeq_keeps_inv ?_ _ _
    exact hi
  · exact hi
  · refine breakSeq_keeps_inv ?_ _ _
    exact hi
  · exact hi

/-- The boundary after an instruction keeps the invariant. -/
theorem boundary_keeps_inv (hi : s.Inv) (armed : Bool) : (s.boundary armed).Inv := by
  obtain ⟨-, h⟩ | ⟨-, -, h⟩ | ⟨-, -, u, hu, h⟩ := boundary_cases s armed <;> rw [h]
  · exact hi
  · exact hi
  · have hiu : u.Inv := by
      subst hu
      split
      · refine breakSeq_keeps_inv ?_ _ _
        exact hi
      · exact hi
    exact acceptRequests_keeps_inv hiu _

/-- A state with no instruction in progress keeps the invariant. -/
theorem inv_idle (hi : s.Inv) : ({ s with inProgress := none } : State).Inv :=
  ⟨hi.1, hi.2.1, fun _ h => absurd h (by simp)⟩

/-- A pause between two elements keeps the invariant. -/
theorem pause_keeps_inv (hi : s.Inv) : s.pause.Inv := by
  obtain ⟨-, h⟩ | ⟨-, -, -, h⟩ := pause_cases s <;> rw [h]
  · exact hi
  · refine acceptRequests_keeps_inv ?_ _
    exact inv_idle hi

/-- What follows an instruction keeps the invariant. -/
theorem finish_keeps_inv (hi : s.Inv) (i : Instr) (armed : Bool) : (s.finish i armed).Inv := by
  unfold State.finish
  split
  · exact hi
  · split
    · exact pause_keeps_inv hi
    · exact boundary_keeps_inv hi armed

/-- The choice of an instruction keeps the invariant. -/
theorem select_keeps_inv (h : s.select = .ok (i, t)) (hi : s.Inv) : t.Inv := by
  obtain ⟨-, rfl⟩ | ⟨-, rest, -, -, rfl⟩ := select_ok h
  · exact inv_idle hi
  · exact hi

/-- Settles O56: a step is a look at the requests, or the choice of an instruction, the instruction and what follows it,
and each of these keeps the invariant. -/
theorem everyStepKeepsTheInvariant : Obligations.EveryStepKeepsTheInvariant := by
  intro s t hi h
  obtain ⟨-, rfl⟩ | ⟨-, i, u, v, hsel, hexec, rfl⟩ := step_next h
  · exact acceptRequests_keeps_inv hi _
  · exact finish_keeps_inv (exec_keeps_inv hexec (select_keeps_inv hsel hi)) i _

end Sys2Proof.Machine
end

section
/-! PROOFS. Words in memory, effective addresses with the moves of addresses and flags, and the I/O ports
(20_memory.md, 40_data_transfer.md, 42_bitfield_io.md): O10, O31 and O33. -/

namespace Sys2Proof.Machine

/-! ### Words in memory -/

/-- Below offset FFFFH the high-order byte of a word is the byte at the next offset, in either address mode (R41). -/
theorem addrHigh_eq_addr_succ (s : State) (seg : Word) {off : Word} (h : off ≠ 0xFFFF) :
    s.addrHigh seg off = s.addr seg (off + 1) := by
  have hlast : ¬ (off = 0xFFFF && !Config.wordWrapInSegment) = true := by
    rw [Bool.and_eq_true, decide_eq_true_eq]
    exact fun e => h e.1
  rw [State.addrHigh, if_neg hlast]

/-- Settles O10: a word is stored as its two bytes, which are at different addresses in the normal address mode. -/
theorem wordsAreLittleEndian : Obligations.WordsAreLittleEndian := by
  intro s seg off v hn t
  obtain ⟨hhigh, hlow⟩ : Stored .word seg off v s t := State.writeMem_stored s .word seg off v
  exact ⟨State.readWord_writeWord hn seg off v, hlow (State.addrHigh_ne hn seg off), hhigh,
    State.writeMem_only s .word seg off v, addrHigh_eq_addr_succ s seg, State.addr_normal hn seg off⟩

/-! ### Effective addresses and their segments -/

/-- A segment register reads as the value the spec names (R12, R75). -/
theorem sreg_eq_segmentValue (s : State) (g : SReg) : s.sreg g = segmentValue s g := by
  cases g <;> rfl

/-- Without an override the segment is the default one (R46). -/
theorem segOr_of_no_override {s : State} (h : s.prefixes.override = none) (g : SReg) :
    s.segOr g = segmentValue s g := by
  rw [State.segOr, h, Option.getD_none, sreg_eq_segmentValue]

/-- An override names the segment whatever the default is (R46). -/
theorem segOr_of_override {s : State} {o : SReg} (h : s.prefixes.override = some o) (g : SReg) :
    s.segOr g = segmentValue s o := by
  rw [State.segOr, h, Option.getD_some, sreg_eq_segmentValue]

/-- A row of R76 is the sum of the address registers and the default segment that the model gives it (R45). -/
theorem BaseForm.eq {s : State} {b : Base} {v : Word} {g : SReg} (h : BaseForm s b v g) :
    s.baseValue b = v ∧ (if usesBp b then SReg.ss else SReg.ds0) = g := by
  cases h <;> exact ⟨rfl, rfl⟩

/-- A column of R76 adds its displacement to the row and keeps the row's default segment (R45). -/
theorem OffsetForm.eq {s : State} {m : MemArg} {off : Word} {g : SReg} (h : OffsetForm s m off g) :
    s.ea m = off ∧ defaultSeg m = g := by
  cases h with
  | direct a => exact ⟨rfl, rfl⟩
  | based hb =>
    obtain ⟨hv, hg⟩ := hb.eq
    exact ⟨hv, hg⟩
  | disp8 d hb =>
    obtain ⟨hv, hg⟩ := hb.eq
    exact ⟨congrArg (· + d.signExtend 16) hv, hg⟩
  | disp16 d hb =>
    obtain ⟨hv, hg⟩ := hb.eq
    exact ⟨congrArg (· + d) hv, hg⟩

/-- The segment of a memory operand: its row's default, or the override's (R45, R46). -/
theorem eaSeg_of_offsetForm {s : State} {m : MemArg} {off : Word} {g : SReg} (h : OffsetForm s m off g) :
    (s.prefixes.override = none → s.eaSeg m = segmentValue s g) ∧
      ∀ o, s.prefixes.override = some o → s.eaSeg m = segmentValue s o := by
  rw [State.eaSeg, h.eq.2]
  exact ⟨fun hn => segOr_of_no_override hn g, fun _ ho => segOr_of_override ho g⟩

/-! ### LDEA, TRANS and the moves between AH and PSW -/

/-- A register write holds its value, changes no other register, no flag and nothing undefined (R7, R8). -/
theorem setReg_complete (s : State) (w : Width) (r : Reg) (v : BitVec w.bits) :
    Writes w (.reg r) v s (s.setReg w r v) ∧ (s.setReg w r v).psw = s.psw ∧ (s.setReg w r v).draws = s.draws := by
  obtain ⟨hsame, honly, hframe, hpsw, hdraws⟩ := State.setReg_writes s w r v
  exact ⟨⟨hsame, honly, hframe⟩, hpsw, hdraws⟩

/-- LDEA loads the effective address (R123). -/
theorem exec_ldea_eq (s : State) (r : Reg) (m : MemArg) : exec (.ldea r m) s = .next (s.setReg .word r (s.ea m)) := rfl

/-- TRANS loads AL from the table at BW (R124). -/
theorem exec_trans_eq (s : State) :
    exec .trans s =
      .next (s.setReg .byte .aw (s.mem.read (s.addr s.srcSeg (s.bw + s.al.setWidth 16)))) := rfl

/-- Bit `k` of the high-order byte is bit `8 + k` of the word. -/
theorem getLsbD_highByte (v : Word) (k : Nat) : (highByte v).getLsbD k = (decide (k < 8) && v.getLsbD (8 + k)) := by
  rw [highByte, BitVec.getLsbD_extractLsb']

/-- The five flags loaded from the high-order byte of a word are the bits 15, 14, 12, 10 and 8 of the word (R122). -/
theorem loadLow_highByte (f : Psw) (v : Word) :
    f.loadLow (highByte v) =
      { f with
        s := v.getLsbD 15, z := v.getLsbD 14, ac := v.getLsbD 12, p := v.getLsbD 10, cy := v.getLsbD 8 } := by
  simp only [Psw.loadLow, getLsbD_highByte]
  rfl

/-- MOV PSW, AH loads the five flags from their places in AW (R122). -/
theorem exec_movPswAh_eq (s : State) :
    exec .movPswAh s =
      .next { s with
        psw := { s.psw with
          s := s.aw.getLsbD 15, z := s.aw.getLsbD 14, ac := s.aw.getLsbD 12, p := s.aw.getLsbD 10
          cy := s.aw.getLsbD 8 } } := by
  have hexec : exec .movPswAh s = .next { s with psw := s.psw.loadLow (highByte s.aw) } := rfl
  rw [hexec, loadLow_highByte]

/-- The byte of the flags holds each flag at its place, whatever the three open bits are (R121). -/
theorem getLsbD_ahFromPsw (f : Psw) (free : Byte) :
    (ahFromPsw f free).getLsbD 7 = f.s ∧ (ahFromPsw f free).getLsbD 6 = f.z ∧ (ahFromPsw f free).getLsbD 4 = f.ac ∧
      (ahFromPsw f free).getLsbD 2 = f.p ∧ (ahFromPsw f free).getLsbD 0 = f.cy := by
  simp only [ahFromPsw, BitVec.getLsbD_or, BitVec.getLsbD_shiftLeft, getLsbD_bit]
  simp

/-- MOV AH, PSW loads AH with the byte of the flags, and draws its open bits (R121). -/
theorem exec_movAhPsw_eq (s : State) :
    exec .movAhPsw s =
      .next { s with
        aw := joinBytes s.al (ahFromPsw s.psw (Config.freeByte s.draws)), draws := s.draws + 1 } := rfl

/-- MOV AH, PSW keeps AL and loads AH with the flags (R121). -/
theorem exec_movAhPsw_complete (s : State) :
    ∃ t, exec .movAhPsw s = .next t ∧ t.al = s.al ∧ t.ah.getLsbD 7 = s.psw.s ∧ t.ah.getLsbD 6 = s.psw.z ∧
      t.ah.getLsbD 4 = s.psw.ac ∧ t.ah.getLsbD 2 = s.psw.p ∧ t.ah.getLsbD 0 = s.psw.cy ∧
      t = { s with aw := t.aw, draws := t.draws } := by
  obtain ⟨hs, hz, hac, hp, hcy⟩ := getLsbD_ahFromPsw s.psw (Config.freeByte s.draws)
  refine ⟨_, exec_movAhPsw_eq s, lowByte_joinBytes _ _, ?_⟩
  rw [State.ah, highByte_joinBytes]
  exact ⟨hs, hz, hac, hp, hcy, rfl⟩

/-- Settles O31: the rows and columns of R76 are the cases of `OffsetForm`, and LDEA and TRANS are each one register
write. -/
theorem addressTableAndFlagMovesComplete : Obligations.AddressTableAndFlagMovesComplete := by
  intro s r m
  exact ⟨fun _ _ h => ⟨h.eq.1, eaSeg_of_offsetForm h⟩, fun h => segOr_of_no_override h .ds0,
    fun _ h => segOr_of_override h .ds0, ⟨_, exec_ldea_eq s r m, setReg_complete s .word r _⟩,
    ⟨_, exec_trans_eq s, setReg_complete s .byte .aw _⟩, exec_movPswAh_eq s, exec_movAhPsw_complete s⟩

/-! ### The I/O ports -/

/-- A read from a port gives the environment's answer (R50). -/
theorem ioRead_readsPort (s : State) (w : Width) (port : Word) :
    ReadsPort w port (s.ioRead w port).1 s (s.ioRead w port).2 := by
  constructor
  · intro x rest h
    rw [State.ioRead, h]
    exact ⟨rfl, rfl, rfl⟩
  · intro h
    rw [State.ioRead, h]
    exact ⟨rfl, rfl, rfl⟩

/-- A read from a port takes one answer of the environment, or draws one, and writes nothing else (R50). -/
theorem ioRead_frame (s : State) (w : Width) (port : Word) :
    (s.ioRead w port).2 =
      { s with ioIn := (s.ioRead w port).2.ioIn, draws := (s.ioRead w port).2.draws } := by
  rw [State.ioRead]
  split <;> rfl

/-- What `ReadsPort` says depends on the answers left and the count of those drawn alone. -/
theorem readsPort_congr {w : Width} {port : Word} {v : BitVec w.bits} {s t u : State} (h : ReadsPort w port v s t)
    (hin : u.ioIn = t.ioIn) (hdraws : u.draws = t.draws) : ReadsPort w port v s u := by
  rw [ReadsPort, hin, hdraws]
  exact h

/-- A load of the accumulator writes AW alone, at byte width AL alone (R8). -/
theorem setReg_accumulator (s : State) (w : Width) (v : BitVec w.bits) :
    (w = .byte → (s.setReg w .aw v).ah = s.ah) ∧ s.setReg w .aw v = { s with aw := (s.setReg w .aw v).aw } := by
  cases w with
  | byte => exact ⟨fun _ => highByte_joinBytes _ _, rfl⟩
  | word => exact ⟨fun h => absurd h (by decide), rfl⟩

/-- An input loads the accumulator with what it reads from the port (R165). -/
theorem inputTo_spec (s : State) (w : Width) (port : Word) :
    let t := inputTo w port s
    ReadsPort w port (t.reg w .aw) s t ∧ (w = .byte → t.ah = s.ah) ∧
      t = { s with aw := t.aw, ioIn := t.ioIn, draws := t.draws } := by
  intro t
  generalize hv : (s.ioRead w port).1 = v
  generalize hu : (s.ioRead w port).2 = u
  have ht : t = u.setReg w .aw v := by rw [← hv, ← hu]; rfl
  have hport : ReadsPort w port v s u := hv ▸ hu ▸ ioRead_readsPort s w port
  have hframe : u = { s with ioIn := u.ioIn, draws := u.draws } := hu ▸ ioRead_frame s w port
  obtain ⟨hacc, -, -, -, hdraws⟩ := State.setReg_writes u w .aw v
  obtain ⟨hah, haw⟩ := setReg_accumulator u w v
  refine ⟨?_, fun hw => ?_, ?_⟩
  · rw [ht, hacc]
    exact readsPort_congr hport (State.setReg_ioIn u w .aw v) hdraws
  · rw [ht, hah hw, hframe]
  · rw [ht, haw, hframe]

/-- The model's step of an index register is the spec's (R140 (c)). -/
theorem stepIndex_eq_stepped (s : State) (w : Width) (r : Word) : s.stepIndex w r = stepped s w r := by
  cases hd : s.psw.dir <;> cases w <;> simp [State.stepIndex, stepped, hd, Width.bytes]

/-- One element of INM: what is read from the port in DW is stored at DS1:IY, and IY steps (R168). -/
theorem inmElement_spec (s : State) (w : Width) :
    let t := inmElement w s
    ReadsPort w s.dw (s.ioRead w s.dw).1 s t ∧ Stored w s.ds1 s.iy (s.ioRead w s.dw).1 s t ∧
      OnlyStored w s.ds1 s.iy s t ∧
      t = { s with
        iy := stepped s w s.iy, ioIn := t.ioIn, draws := t.draws, mem := t.mem, stores := t.stores } := by
  intro t
  generalize hv : (s.ioRead w s.dw).1 = v
  generalize hu : (s.ioRead w s.dw).2 = u
  have ht : t = { u.writeMem w u.ds1 u.iy v with iy := stepped s w s.iy } := by
    rw [← hv, ← hu, ← stepIndex_eq_stepped]
    rfl
  have hport : ReadsPort w s.dw v s u := hv ▸ hu ▸ ioRead_readsPort s w s.dw
  have hframe : u = { s with ioIn := u.ioIn, draws := u.draws } := hu ▸ ioRead_frame s w s.dw
  have hstored := State.writeMem_stored u w u.ds1 u.iy v
  have honly := State.writeMem_only u w u.ds1 u.iy v
  refine ⟨?_, ?_, ?_, ?_⟩
  · rw [ht]
    exact readsPort_congr hport (State.writeMem_ioIn u w _ _ v) (State.writeMem_draws u w _ _ v)
  · rw [ht]
    rw [hframe] at hstored ⊢
    exact hstored
  · rw [ht]
    rw [hframe] at honly ⊢
    exact honly
  · rw [ht, State.writeMem_eq, hframe]

/-- One element of OUTM: what stands at the source is written to the port in DW, and IX steps (R169). -/
theorem outmElement_eq (s : State) (w : Width) :
    outmElement w s =
      { s with
        ix := stepped s w s.ix
        ioOut := { port := s.dw, width := w, value := (s.readMem w s.srcSeg s.ix).setWidth 16 } :: s.ioOut } := by
  rw [← stepIndex_eq_stepped]
  rfl

/-- Without a repeat prefix a block instruction is one element (R140). -/
theorem runBlock_of_no_repeat {s : State} (h : s.prefixes.repeated = none) (i : Instr) (compares : Bool)
    (element : State → State) : runBlock i compares element s = .next (element s) := by
  rw [runBlock, h]

theorem exec_inAccImm_eq (s : State) (w : Width) (p : Byte) :
    exec (.inAccImm w p) s = .next (inputTo w (p.setWidth 16) s) := rfl
theorem exec_inAccDw_eq (s : State) (w : Width) : exec (.inAccDw w) s = .next (inputTo w s.dw s) := rfl
theorem exec_inm_eq (s : State) (w : Width) : exec (.inm w) s = runBlock (.inm w) false (inmElement w) s := rfl
theorem exec_outm_eq (s : State) (w : Width) : exec (.outm w) s = runBlock (.outm w) false (outmElement w) s := rfl

/-- Settles O33: both forms of IN are the one input at their port, OUT records its write, and INM and OUTM without a
repeat prefix are one element. -/
theorem portTransfersComplete : Obligations.PortTransfersComplete := by
  intro s w p
  refine ⟨⟨_, exec_inAccImm_eq s w p, inputTo_spec s w _⟩, ⟨_, exec_inAccDw_eq s w, inputTo_spec s w _⟩, rfl, rfl,
    fun hrep => ⟨⟨_, _, ?_, inmElement_spec s w⟩, ?_⟩⟩
  · rw [exec_inm_eq, runBlock_of_no_repeat hrep]
  · rw [exec_outm_eq, runBlock_of_no_repeat hrep, outmElement_eq]

end Sys2Proof.Machine
end

section
/-! PROOFS. Decoding reads an instruction back from its bytes (30_encoding.md): O5 and O6. The native-mode map is taken
op code by op code: a lemma says what follows from the answer of the reader of the operand field, and another that the
reader reads that field back. -/

namespace Sys2Proof

/-! ### Readers -/

/-- A reader that succeeds hands its result on. -/
theorem bind_of_eq_ok {α β : Type} {x : Except Reject α} {a : α} (h : x = .ok a) (k : α → Except Reject β) :
    x >>= k = k a := by
  rw [h]
  rfl

/-- What `takeRM` answers comes from a first byte with that middle field. -/
theorem takeRM_head {bs rest : List Byte} {mid : BitVec 3} {rm : RM} (h : takeRM bs = .ok (mid, rm, rest)) :
    ∃ b tail, bs = b :: tail ∧ midField b = mid := by
  cases bs with
  | nil => cases h
  | cons b tail =>
    refine ⟨b, tail, rfl, ?_⟩
    cases hd : takeDisp (modField b) (memField b) tail with
    | error e => simp [takeRM, hd, bind, Except.bind] at h
    | ok p =>
      simp only [takeRM, takeByte_cons, hd, bind, Except.bind, pure, Except.pure, Except.ok.injEq, Prod.mk.injEq] at h
      exact h.1

theorem takeRM0_encodeRM (rm : RM) (h : rm.wf = true) (rest : List Byte) :
    takeRM0 (encodeRM 0 rm ++ rest) = .ok (rm, rest) := by
  rw [takeRM0, bind_of_eq_ok (takeRM_encodeRM 0 rm h rest)]
  rfl

theorem takeMem0_encodeMem (m : MemArg) (h : m.wf = true) (rest : List Byte) :
    takeMem0 (encodeMem 0 m ++ rest) = .ok (m, rest) := by
  rw [takeMem0, bind_of_eq_ok (takeMem_encodeMem 0 m h rest)]
  rfl

theorem takeRegs_encodeRM (mid : BitVec 3) (r : Reg) (rest : List Byte) :
    takeRegs (encodeRM mid (.reg r) ++ rest) = .ok (mid, r, rest) := by
  simp [takeRegs, encodeRM, bind, Except.bind, pure, Except.pure]

/-! ### Reading back one instruction -/

/-- The native-mode map of a class: the first byte selects, the bytes after it are the operands (R88). -/
def decodeFrom (c : Cls) (bs : List Byte) : Decoded := do
  let (b, rest) ← takeByte bs
  decodeNative c b rest

theorem decodeFrom_cons (c : Cls) (b : Byte) (bs : List Byte) : decodeFrom c (b :: bs) = decodeNative c b bs := rfl

theorem decode_eq_decodeFrom {m : CodeMap} {c : Cls} (hm : m.nativeCls = some c) (bs : List Byte) :
    decode m bs = decodeFrom c bs := by
  rw [decode, hm]
  rfl

/-- The class reads the instruction back from its own bytes, whatever follows them. -/
def ReadBack (c : Cls) (i : Instr) : Prop := ∀ rest, decodeFrom c (encode i ++ rest) = .ok (i, rest)

variable {c : Cls} {α : Type} {take : List Byte → Except Reject α} {field : List Byte}

/-- Op code bytes, then one field: it is enough that a reader reads the field, and that what follows from its answer is
the instruction. -/
theorem readBack_field {i : Instr} {x : List Byte → α} (ops : List Byte)
    (hread : ∀ rest, take (field ++ rest) = .ok (x rest)) (he : encode i = ops ++ field)
    (hop : ∀ {bs rest}, take bs = .ok (x rest) → decodeFrom c (ops ++ bs) = .ok (i, rest)) : ReadBack c i := by
  intro rest
  rw [he, List.append_assoc]
  exact hop (hread rest)

/-- The same with bytes after the field. -/
theorem readBack_field_tail {i : Instr} {x : List Byte → α} (ops : List Byte) {tail : List Byte}
    (hread : ∀ rest, take (field ++ rest) = .ok (x rest)) (he : encode i = ops ++ (field ++ tail))
    (hop : ∀ {bs rest}, take bs = .ok (x (tail ++ rest)) → decodeFrom c (ops ++ bs) = .ok (i, rest)) :
    ReadBack c i := by
  intro rest
  rw [he, List.append_assoc, List.append_assoc]
  exact hop (hread (tail ++ rest))

/-- The same where the middle field is the code of a register operand. -/
theorem readBack_reg_field {β : Type} {take : List Byte → Except Reject (BitVec 3 × β)} {y : List Byte → β}
    (f : Reg → Instr) (r : Reg) (ops : List Byte) (hread : ∀ rest, take (field ++ rest) = .ok (r.code, y rest))
    (he : encode (f r) = ops ++ field)
    (hop : ∀ {mid bs rest}, take bs = .ok (mid, y rest) → decodeFrom c (ops ++ bs) = .ok (f (.ofCode mid), rest)) :
    ReadBack c (f r) :=
  readBack_field ops hread he fun h => by rw [hop h, Reg.ofCode_code]

/-- The same where the middle field is the code of a register operand and bytes follow the field. -/
theorem readBack_reg_field_tail {β : Type} {take : List Byte → Except Reject (BitVec 3 × β)} {y : List Byte → β}
    (f : Reg → Instr) (r : Reg) (ops : List Byte) {tail : List Byte}
    (hread : ∀ rest, take (field ++ rest) = .ok (r.code, y rest)) (he : encode (f r) = ops ++ (field ++ tail))
    (hop : ∀ {mid bs rest}, take bs = .ok (mid, y (tail ++ rest)) →
      decodeFrom c (ops ++ bs) = .ok (f (.ofCode mid), rest)) : ReadBack c (f r) :=
  readBack_field_tail ops hread he fun h => by rw [hop h, Reg.ofCode_code]

variable {rm : RM}

/-! ### The eight operations of two operands (R180, R250) -/

/-- The first byte `00ooo000` of an operation's `mem, reg` form at byte width (R180, R250). -/
def AluOp.op : AluOp → Byte
  | .add => 0x00
  | .or => 0x08
  | .addc => 0x10
  | .subc => 0x18
  | .and => 0x20
  | .sub => 0x28
  | .xor => 0x30
  | .cmp => 0x38

/-- The operation number of the Imm group (R93). -/
def AluOp.code : AluOp → BitVec 3
  | .add => 0
  | .or => 1
  | .addc => 2
  | .subc => 3
  | .and => 4
  | .sub => 5
  | .xor => 6
  | .cmp => 7

theorem AluOp.ofCode_code (o : AluOp) : AluOp.ofCode o.code = o := by cases o <;> rfl

section
variable (o : AluOp) (w : Width)

theorem decodeFrom_rmReg {bs rest : List Byte} {mid : BitVec 3} (h : takeRM bs = .ok (mid, rm, rest)) :
    decodeFrom c (opW o.op w :: bs) = .ok (o.rmReg w rm (.ofCode mid), rest) := by
  cases o <;> cases w <;> exact bind_of_eq_ok h _

theorem decodeFrom_regRm {bs rest : List Byte} {mid : BitVec 3} (h : takeRM bs = .ok (mid, rm, rest)) :
    decodeFrom c (opW (o.op ||| 2) w :: bs) = .ok (o.regRm w (.ofCode mid) rm, rest) := by
  cases o <;> cases w <;> exact bind_of_eq_ok h _

theorem decodeFrom_accImm {bs rest : List Byte} {v : Imm} (h : takeImm w bs = .ok (v, rest)) :
    decodeFrom c (opW (o.op ||| 4) w :: bs) = .ok (o.accImm v, rest) := by
  cases o <;> cases w <;> exact bind_of_eq_ok h _

theorem decodeFrom_rmImm {bs rest : List Byte} {v : ImmS} (h : takeRM bs = .ok (o.code, rm, v.bytes ++ rest)) :
    decodeFrom c (v.op :: bs) = .ok (o.rmImm rm v, rest) := by
  have hgroup : decodeFrom c (v.op :: bs) = decodeImmGroup v.op bs := by
    rw [decodeFrom_cons]
    cases v <;> simp only [ImmS.op] <;> rfl
  rw [hgroup, decodeImmGroup, bind_of_eq_ok h, ← AluOp.ofCode_code o]
  exact (bind_of_eq_ok (takeImmS_bytes v rest) _).trans (by rw [AluOp.ofCode_code]; rfl)

theorem readBack_rmReg (h : rm.wf = true) (r : Reg) : ReadBack c (o.rmReg w rm r) :=
  readBack_reg_field (o.rmReg w rm) r [opW o.op w] (takeRM_encodeRM r.code rm h)
    (by cases o <;> rfl) (decodeFrom_rmReg o w)

theorem readBack_regRm (r : Reg) (h : rm.wf = true) : ReadBack c (o.regRm w r rm) :=
  readBack_reg_field (fun r => o.regRm w r rm) r [opW (o.op ||| 2) w] (takeRM_encodeRM r.code rm h)
    (by cases o <;> rfl) (decodeFrom_regRm o w)

theorem readBack_accImm (v : Imm) : ReadBack c (o.accImm v) :=
  readBack_field [opW (o.op ||| 4) v.width] (takeImm_bytes v) (by cases o <;> rfl)
    (decodeFrom_accImm o v.width)

theorem readBack_rmImm (h : rm.wf = true) (v : ImmS) : ReadBack c (o.rmImm rm v) :=
  readBack_field_tail [v.op] (takeRM_encodeRM o.code rm h) (by cases o <;> rfl) (decodeFrom_rmImm o)

end

/-! ### The groups -/

/-- The sub-codes of the Shift group, each with its three forms: count 1, count CL, count imm8 (R93, R270). -/
inductive ShiftRow : BitVec 3 → (Width → RM → Instr) → (Width → RM → Instr) → (Width → RM → Byte → Instr) → Prop
  | rol : ShiftRow 0 .rolOne .rolCl .rolImm
  | ror : ShiftRow 1 .rorOne .rorCl .rorImm
  | rolc : ShiftRow 2 .rolcOne .rolcCl .rolcImm
  | rorc : ShiftRow 3 .rorcOne .rorcCl .rorcImm
  | shl : ShiftRow 4 .shlOne .shlCl .shlImm
  | shr : ShiftRow 5 .shrOne .shrCl .shrImm
  | shra : ShiftRow 7 .shraOne .shraCl .shraImm

/-- The sub-codes of Group1 that have a register or memory operand alone (R93). -/
inductive Group1Row : BitVec 3 → (Width → RM → Instr) → Prop
  | not : Group1Row 2 .notRm
  | neg : Group1Row 3 .negRm
  | mulu : Group1Row 4 .muluRm
  | mul : Group1Row 5 .mulRm
  | divu : Group1Row 6 .divuRm
  | div : Group1Row 7 .divRm

/-- The sub-codes of Group2 with first byte FFH, each with the operands it takes (R93, R95 (a)). -/
inductive Group2Row : BitVec 3 → RM → Instr → Prop
  | inc (rm : RM) : Group2Row 0 rm (.incRm .word rm)
  | dec (rm : RM) : Group2Row 1 rm (.decRm .word rm)
  | callReg (r : Reg) : Group2Row 2 (.reg r) (.callRegptr r)
  | callMem (m : MemArg) : Group2Row 2 (.mem m) (.callMemptr16 m)
  | callFar (m : MemArg) : Group2Row 3 (.mem m) (.callMemptr32 m)
  | brReg (r : Reg) : Group2Row 4 (.reg r) (.brRegptr r)
  | brMem (m : MemArg) : Group2Row 4 (.mem m) (.brMemptr16 m)
  | brFar (m : MemArg) : Group2Row 5 (.mem m) (.brMemptr32 m)
  | push (m : MemArg) : Group2Row 6 (.mem m) (.pushMem m)

/-- The sub-codes of Group2 that both its first bytes have (R93). -/
inductive IncDecRow : BitVec 3 → (Width → RM → Instr) → Prop
  | inc : IncDecRow 0 .incRm
  | dec : IncDecRow 1 .decRm

theorem IncDecRow.group2Row {sub : BitVec 3} {mk : Width → RM → Instr} (t : IncDecRow sub mk) :
    Group2Row sub rm (mk .word rm) := by
  cases t with
  | inc => exact .inc rm
  | dec => exact .dec rm

/-- The second bytes of the bit manipulation instructions of Group3 at byte width, with a count in CL and immediate
(R94, R260). -/
inductive BitRow : Byte → (Width → RM → Instr) → Byte → (Width → RM → Byte → Instr) → Prop
  | test1 : BitRow 0x10 .test1Cl 0x18 .test1Imm
  | clr1 : BitRow 0x12 .clr1Cl 0x1A .clr1Imm
  | set1 : BitRow 0x14 .set1Cl 0x1C .set1Imm
  | not1 : BitRow 0x16 .not1Cl 0x1E .not1Imm

section
variable {sub : BitVec 3} {one cl : Width → RM → Instr} {imm : Width → RM → Byte → Instr} {bs rest : List Byte}

theorem decodeShiftOne_eq (t : ShiftRow sub one cl imm) (w : Width) (h : takeRM bs = .ok (sub, rm, rest)) :
    decodeShiftOne w bs = .ok (one w rm, rest) := by
  obtain ⟨b, tail, rfl, hb⟩ := takeRM_head h
  simp only [decodeShiftOne, bind_of_eq_ok (takeByte_cons b tail), hb, bind_of_eq_ok h]
  cases t <;> rfl

theorem decodeShiftCl_eq (t : ShiftRow sub one cl imm) (w : Width) (h : takeRM bs = .ok (sub, rm, rest)) :
    decodeShiftCl w bs = .ok (cl w rm, rest) := by
  obtain ⟨b, tail, rfl, hb⟩ := takeRM_head h
  simp only [decodeShiftCl, bind_of_eq_ok (takeByte_cons b tail), hb, bind_of_eq_ok h]
  cases t <;> rfl

theorem decodeShiftImm_eq (t : ShiftRow sub one cl imm) (w : Width) {n : Byte}
    (h : takeRM bs = .ok (sub, rm, n :: rest)) : decodeShiftImm w bs = .ok (imm w rm n, rest) := by
  obtain ⟨b, tail, rfl, hb⟩ := takeRM_head h
  simp only [decodeShiftImm, bind_of_eq_ok (takeByte_cons b tail), hb, bind_of_eq_ok h]
  cases t <;> rfl

theorem decodeGroup1_eq (t : Group1Row sub one) (w : Width) (h : takeRM bs = .ok (sub, rm, rest)) :
    decodeGroup1 w bs = .ok (one w rm, rest) := by
  obtain ⟨b, tail, rfl, hb⟩ := takeRM_head h
  simp only [decodeGroup1, bind_of_eq_ok (takeByte_cons b tail), hb, bind_of_eq_ok h]
  cases t <;> rfl

theorem decodeGroup1_test {v : Imm} (h : takeRM bs = .ok (0, rm, v.bytes ++ rest)) :
    decodeGroup1 v.width bs = .ok (.testRmImm rm v, rest) := by
  obtain ⟨b, tail, rfl, hb⟩ := takeRM_head h
  simp only [decodeGroup1, bind_of_eq_ok (takeByte_cons b tail), hb, bind_of_eq_ok h]
  exact bind_of_eq_ok (takeImm_bytes v rest) _

theorem decodeGroup2Byte_eq (t : IncDecRow sub one) (h : takeRM bs = .ok (sub, rm, rest)) :
    decodeGroup2Byte bs = .ok (one .byte rm, rest) := by
  obtain ⟨b, tail, rfl, hb⟩ := takeRM_head h
  simp only [decodeGroup2Byte, bind_of_eq_ok (takeByte_cons b tail), hb, bind_of_eq_ok h]
  cases t <;> rfl

theorem decodeGroup2Word_eq {i : Instr} (t : Group2Row sub rm i) (h : takeRM bs = .ok (sub, rm, rest)) :
    decodeGroup2Word bs = .ok (i, rest) := by
  obtain ⟨b, tail, rfl, hb⟩ := takeRM_head h
  simp only [decodeGroup2Word, bind_of_eq_ok (takeByte_cons b tail), hb, bind_of_eq_ok h]
  cases t <;> rfl

end

section
variable {sub : BitVec 3} {one cl : Width → RM → Instr} {imm : Width → RM → Byte → Instr} {op op' : Byte}

theorem readBack_shiftOne (t : ShiftRow sub one cl imm) (w : Width) (h : rm.wf = true) : ReadBack c (one w rm) :=
  readBack_field [opW 0xD0 w] (takeRM_encodeRM sub rm h) (by cases t <;> rfl) fun ho => by
    cases w <;> exact decodeShiftOne_eq t _ ho

theorem readBack_shiftCl (t : ShiftRow sub one cl imm) (w : Width) (h : rm.wf = true) : ReadBack c (cl w rm) :=
  readBack_field [opW 0xD2 w] (takeRM_encodeRM sub rm h) (by cases t <;> rfl) fun ho => by
    cases w <;> exact decodeShiftCl_eq t _ ho

theorem readBack_shiftImm (t : ShiftRow sub one cl imm) (w : Width) (h : rm.wf = true) (n : Byte) :
    ReadBack c (imm w rm n) :=
  readBack_field_tail (tail := [n]) [opW 0xC0 w] (takeRM_encodeRM sub rm h) (by cases t <;> rfl) fun ho => by
    cases w <;> exact decodeShiftImm_eq t _ ho

theorem decodeFrom_group1 (w : Width) (bs : List Byte) : decodeFrom c (opW 0xF6 w :: bs) = decodeGroup1 w bs := by
  cases w <;> rfl

theorem readBack_group1 (t : Group1Row sub one) (w : Width) (h : rm.wf = true) : ReadBack c (one w rm) :=
  readBack_field [opW 0xF6 w] (takeRM_encodeRM sub rm h) (by cases t <;> rfl) fun ho =>
    (decodeFrom_group1 w _).trans (decodeGroup1_eq t w ho)

theorem readBack_testRmImm (h : rm.wf = true) (v : Imm) : ReadBack c (.testRmImm rm v) :=
  readBack_field_tail [opW 0xF6 v.width] (takeRM_encodeRM 0 rm h) rfl fun ho =>
    (decodeFrom_group1 v.width _).trans (decodeGroup1_test ho)

theorem readBack_incDec (t : IncDecRow sub one) (w : Width) (h : rm.wf = true) : ReadBack c (one w rm) :=
  readBack_field [opW 0xFE w] (takeRM_encodeRM sub rm h) (by cases t <;> rfl) fun ho => by
    cases w with
    | byte => exact decodeGroup2Byte_eq t ho
    | word => exact decodeGroup2Word_eq t.group2Row ho

theorem readBack_group2 {i : Instr} (t : Group2Row sub rm i) (h : rm.wf = true)
    (he : encode i = 0xFF :: encodeRM sub rm) : ReadBack c i :=
  readBack_field [0xFF] (takeRM_encodeRM sub rm h) he (decodeGroup2Word_eq t)

theorem readBack_bitCl (t : BitRow op cl op' imm) (w : Width) (h : rm.wf = true) : ReadBack c (cl w rm) :=
  readBack_field [0x0F, opW op w] (takeRM0_encodeRM rm h) (by cases t <;> rfl) fun ho => by
    cases t <;> cases w <;> exact bind_of_eq_ok ho _

theorem readBack_bitImm (t : BitRow op cl op' imm) (w : Width) (h : rm.wf = true) (n : Byte) :
    ReadBack c (imm w rm n) :=
  readBack_field_tail (tail := [n]) [0x0F, opW op' w] (takeRM0_encodeRM rm h) (by cases t <;> rfl) fun ho => by
    cases t <;> cases w <;> exact bind_of_eq_ok ho _

end

/-! ### Op codes of one instruction each -/

theorem readBack_testRmReg (w : Width) (h : rm.wf = true) (r : Reg) : ReadBack c (.testRmReg w rm r) :=
  readBack_reg_field (.testRmReg w rm) r [opW 0x84 w] (takeRM_encodeRM r.code rm h) rfl fun ho => by
    cases w <;> exact bind_of_eq_ok ho _

theorem decodeFrom_testAccImm {w : Width} {bs rest : List Byte} {v : Imm} (h : takeImm w bs = .ok (v, rest)) :
    decodeFrom c (opW 0xA8 w :: bs) = .ok (.testAccImm v, rest) := by
  cases w <;> exact bind_of_eq_ok h _

theorem readBack_testAccImm (v : Imm) : ReadBack c (.testAccImm v) :=
  readBack_field [opW 0xA8 v.width] (takeImm_bytes v) rfl decodeFrom_testAccImm

theorem decodeFrom_movMemImm {w : Width} {bs bs' rest : List Byte} {m : MemArg} {v : Imm}
    (h : takeMem0 bs = .ok (m, bs')) (hv : takeImm w bs' = .ok (v, rest)) :
    decodeFrom c (opW 0xC6 w :: bs) = .ok (.movMemImm m v, rest) := by
  cases w <;> exact (bind_of_eq_ok h _).trans (bind_of_eq_ok hv _)

theorem readBack_movMemImm {m : MemArg} (h : m.wf = true) (v : Imm) : ReadBack c (.movMemImm m v) :=
  readBack_field_tail [opW 0xC6 v.width] (takeMem0_encodeMem m h) rfl fun ho =>
    decodeFrom_movMemImm ho (takeImm_bytes v _)

theorem readBack_xchAwReg {r : Reg} (h : r ≠ .aw) : ReadBack c (.xchAwReg r) := by
  cases r with
  | aw => exact absurd rfl h
  | cw | dw | bw | sp | bp | ix | iy => exact fun _ => rfl

theorem readBack_movRegImm (r : Reg) (v : Imm) : ReadBack c (.movRegImm r v) := by
  cases v with
  | byte b => cases r <;> exact fun _ => rfl
  | word x =>
    refine readBack_field [opReg 0xB8 r] (takeImm_bytes (.word x)) rfl fun hv => ?_
    cases r <;> exact bind_of_eq_ok hv _

/-! ### Codes that the spec calls undefined (R95)

Each but D4H and D5H is told from its neighbours by the middle field of its second byte. -/

section
variable (w : Width) (md : BitVec 2) (mem : BitVec 3)

theorem readBack_undefC0 : ReadBack c (.undefC0 w md mem) := by
  intro rest
  have h : decodeShiftImm w (modMidMem md 6 mem :: rest) = .ok (.undefC0 w md mem, rest) := by
    simp [decodeShiftImm, bind, Except.bind, pure, Except.pure]
  cases w <;> exact h

theorem readBack_undefD0 : ReadBack c (.undefD0 w md mem) := by
  intro rest
  have h : decodeShiftOne w (modMidMem md 6 mem :: rest) = .ok (.undefD0 w md mem, rest) := by
    simp [decodeShiftOne, bind, Except.bind, pure, Except.pure]
  cases w <;> exact h

theorem readBack_undefD2 : ReadBack c (.undefD2 w md mem) := by
  intro rest
  have h : decodeShiftCl w (modMidMem md 6 mem :: rest) = .ok (.undefD2 w md mem, rest) := by
    simp [decodeShiftCl, bind, Except.bind, pure, Except.pure]
  cases w <;> exact h

theorem readBack_undefF6 : ReadBack c (.undefF6 w md mem) := by
  intro rest
  have h : decodeGroup1 w (modMidMem md 1 mem :: rest) = .ok (.undefF6 w md mem, rest) := by
    simp [decodeGroup1, bind, Except.bind, pure, Except.pure]
  cases w <;> exact h

theorem readBack_undefFF : ReadBack c (.undefFF md mem) := by
  intro rest
  have h : decodeGroup2Word (modMidMem md 7 mem :: rest) = .ok (.undefFF md mem, rest) := by
    simp [decodeGroup2Word, bind, Except.bind, pure, Except.pure]
  exact h

theorem readBack_undefFE {sub : BitVec 3} (hsub : 2 ≤ sub.toNat) : ReadBack c (.undefFE md sub mem) := by
  intro rest
  have h : decodeGroup2Byte (modMidMem md sub mem :: rest) = .ok (.undefFE md sub mem, rest) := by
    simp [decodeGroup2Byte, hsub, bind, Except.bind, pure, Except.pure]
  exact h

theorem readBack_undefCvt {b : Byte} (hb : b ≠ 0x0A) : ReadBack c (.undefCvt w b) := by
  intro rest
  cases w <;> exact congrArg (fun i => Except.ok (i, rest)) (if_neg hb)

end

/-- 10H to 1FH are all defined second bytes after 0FH (R94). -/
theorem definedSecond_of_row1 {b : Byte} (h : b.toNat / 16 = 1) : definedSecond c b = true := by
  have hmem : ∀ b : Byte, b.toNat / 16 = 1 → commonSecond.contains b = true := by decide
  simp only [definedSecond, hmem b h, Bool.true_or]

/-- A blank of Table C-4 is none of the second bytes that Group3 reads. -/
theorem decodeGroup3_undefined {b : Byte} (h : definedSecond c b = false) (rest : List Byte) :
    decodeGroup3 c (b :: rest) = .ok (.undef0F b, rest) := by
  have hrow : b.toNat / 16 ≠ 1 := fun hb => by simp [definedSecond_of_row1 hb] at h
  have hne : ∀ n : Nat, definedSecond c (BitVec.ofNat 8 n) = true → b.toNat ≠ n := by
    rintro n hn rfl
    simp [h] at hn
  simp only [decodeGroup3, if_neg hrow]
  split
  iterate 9 (next hb => exact absurd hb (hne _ rfl))
  split
  iterate 3 (next hb => exact absurd hb (hne _ rfl))
  rfl

/-! ### Floating-point op codes (R370, R371) -/

/-- With `mod = 11` a register is read and no byte follows (R76). -/
theorem takeRM_register (mid z : BitVec 3) (rest : List Byte) :
    takeRM (modMidMem 3 mid z :: rest) = .ok (mid, .reg (.ofCode z), rest) := by
  simp [takeRM, takeDisp, bind, Except.bind, pure, Except.pure]

theorem Reg.code_ofCode (x : BitVec 3) : (Reg.ofCode x).code = x := by
  revert x
  decide

theorem readBack_fpo1Mem (x y : BitVec 3) {m : MemArg} (h : m.wf = true) : ReadBack c (.fpo1Mem x y m) := by
  obtain ⟨r, rfl⟩ : ∃ r : Reg, r.code = x := ⟨_, Reg.code_ofCode x⟩
  refine readBack_field [0xD8 ||| r.code.setWidth 8] (takeRM_encodeMem y m h) rfl fun ho => ?_
  obtain ⟨b, tail, rfl, -⟩ := takeRM_head ho
  cases r <;> exact bind_of_eq_ok ho _

theorem readBack_fpo2Mem (x : BitVec 1) (y : BitVec 3) {m : MemArg} (h : m.wf = true) :
    ReadBack c (.fpo2Mem x y m) := by
  refine readBack_field [0x66 ||| x.setWidth 8] (takeRM_encodeMem y m h) rfl fun ho => ?_
  obtain ⟨b, tail, rfl, -⟩ := takeRM_head ho
  rcases BitVec.eq_zero_or_eq_one x with rfl | rfl <;> exact bind_of_eq_ok ho _

theorem readBack_fpo1Reg (x y z : BitVec 3) : ReadBack c (.fpo1Reg x y z) := by
  obtain ⟨r, rfl⟩ : ∃ r : Reg, r.code = x := ⟨_, Reg.code_ofCode x⟩
  intro rest
  have hz : Except.ok (Instr.fpo1Reg r.code y (memField (modMidMem 3 y z)), rest) =
      (.ok (.fpo1Reg r.code y z, rest) : Decoded) := by rw [memField_modMidMem]
  cases r <;> exact (bind_of_eq_ok (takeRM_register y z rest) _).trans hz

theorem readBack_fpo2Reg (x : BitVec 1) (y z : BitVec 3) : ReadBack c (.fpo2Reg x y z) := by
  intro rest
  have hz : Except.ok (Instr.fpo2Reg x y (memField (modMidMem 3 y z)), rest) =
      (.ok (.fpo2Reg x y z, rest) : Decoded) := by rw [memField_modMidMem]
  rcases BitVec.eq_zero_or_eq_one x with rfl | rfl <;>
    exact (bind_of_eq_ok (takeRM_register y z rest) _).trans hz

/-! ### Every instruction -/

/-- Each instruction of a class's native-mode map whose operands have an encoding is read back. -/
theorem readBack_of_operandsOk {m : CodeMap} {i : Instr} (hm : m.nativeCls = some c) (hi : i.inMap m = true)
    (h : i.operandsOk m = true) : ReadBack c i := by
  cases i with
  | addRmReg w o r => exact readBack_rmReg .add w h r
  | addRegRm w r o => exact readBack_regRm .add w r h
  | addAccImm v => exact readBack_accImm .add v
  | addRmImm o v => exact readBack_rmImm .add h v
  | orRmReg w o r => exact readBack_rmReg .or w h r
  | orRegRm w r o => exact readBack_regRm .or w r h
  | orAccImm v => exact readBack_accImm .or v
  | orRmImm o v => exact readBack_rmImm .or h v
  | addcRmReg w o r => exact readBack_rmReg .addc w h r
  | addcRegRm w r o => exact readBack_regRm .addc w r h
  | addcAccImm v => exact readBack_accImm .addc v
  | addcRmImm o v => exact readBack_rmImm .addc h v
  | subcRmReg w o r => exact readBack_rmReg .subc w h r
  | subcRegRm w r o => exact readBack_regRm .subc w r h
  | subcAccImm v => exact readBack_accImm .subc v
  | subcRmImm o v => exact readBack_rmImm .subc h v
  | andRmReg w o r => exact readBack_rmReg .and w h r
  | andRegRm w r o => exact readBack_regRm .and w r h
  | andAccImm v => exact readBack_accImm .and v
  | andRmImm o v => exact readBack_rmImm .and h v
  | subRmReg w o r => exact readBack_rmReg .sub w h r
  | subRegRm w r o => exact readBack_regRm .sub w r h
  | subAccImm v => exact readBack_accImm .sub v
  | subRmImm o v => exact readBack_rmImm .sub h v
  | xorRmReg w o r => exact readBack_rmReg .xor w h r
  | xorRegRm w r o => exact readBack_regRm .xor w r h
  | xorAccImm v => exact readBack_accImm .xor v
  | xorRmImm o v => exact readBack_rmImm .xor h v
  | cmpRmReg w o r => exact readBack_rmReg .cmp w h r
  | cmpRegRm w r o => exact readBack_regRm .cmp w r h
  | cmpAccImm v => exact readBack_accImm .cmp v
  | cmpRmImm o v => exact readBack_rmImm .cmp h v
  | testRmReg w o r => exact readBack_testRmReg w h r
  | testAccImm v => exact readBack_testAccImm v
  | testRmImm o v => exact readBack_testRmImm h v
  | notRm w o => exact readBack_group1 .not w h
  | negRm w o => exact readBack_group1 .neg w h
  | muluRm w o => exact readBack_group1 .mulu w h
  | mulRm w o => exact readBack_group1 .mul w h
  | divuRm w o => exact readBack_group1 .divu w h
  | divRm w o => exact readBack_group1 .div w h
  | mulRegRmImm16 r o v =>
    exact readBack_reg_field_tail (fun r => .mulRegRmImm16 r o v) r [0x69] (takeRM_encodeRM r.code o h) rfl fun ho =>
      (bind_of_eq_ok ho _).trans (bind_of_eq_ok (takeWord_wordBytes v _) _)
  | mulRegRmImm8 r o v =>
    exact readBack_reg_field_tail (fun r => .mulRegRmImm8 r o v) r [0x6B] (takeRM_encodeRM r.code o h) rfl fun ho =>
      bind_of_eq_ok ho _
  | incReg r | decReg r | pushReg r | popReg r => cases r <;> exact fun _ => rfl
  | incRm w o => exact readBack_incDec .inc w h
  | decRm w o => exact readBack_incDec .dec w h
  | callRegptr r => exact readBack_group2 (.callReg r) rfl rfl
  | callMemptr16 o => exact readBack_group2 (.callMem o) h rfl
  | callMemptr32 o => exact readBack_group2 (.callFar o) h rfl
  | brRegptr r => exact readBack_group2 (.brReg r) rfl rfl
  | brMemptr16 o => exact readBack_group2 (.brMem o) h rfl
  | brMemptr32 o => exact readBack_group2 (.brFar o) h rfl
  | pushMem o => exact readBack_group2 (.push o) h rfl
  | pushSreg s | popSreg s => cases s <;> exact fun _ => rfl
  | pushImm16 v => exact readBack_field [0x68] (takeWord_wordBytes v) rfl fun hv => bind_of_eq_ok hv _
  | retPop v => exact readBack_field [0xC2] (takeWord_wordBytes v) rfl fun hv => bind_of_eq_ok hv _
  | retFarPop v => exact readBack_field [0xCA] (takeWord_wordBytes v) rfl fun hv => bind_of_eq_ok hv _
  | callNear v => exact readBack_field [0xE8] (takeWord_wordBytes v) rfl fun hv => bind_of_eq_ok hv _
  | brNear v => exact readBack_field [0xE9] (takeWord_wordBytes v) rfl fun hv => bind_of_eq_ok hv _
  | popMem o => exact readBack_field [0x8F] (takeMem0_encodeMem o h) rfl fun ho => bind_of_eq_ok ho _
  | prepare v n => exact readBack_field_tail [0xC8] (takeWord_wordBytes v) rfl fun hv => bind_of_eq_ok hv _
  | callFar v u =>
    exact readBack_field_tail [0x9A] (takeWord_wordBytes v) rfl fun hv =>
      (bind_of_eq_ok hv _).trans (bind_of_eq_ok (takeWord_wordBytes u _) _)
  | brFar v u =>
    exact readBack_field_tail [0xEA] (takeWord_wordBytes v) rfl fun hv =>
      (bind_of_eq_ok hv _).trans (bind_of_eq_ok (takeWord_wordBytes u _) _)
  | chkind r o =>
    exact readBack_reg_field (fun r => .chkind r o) r [0x62] (takeMem_encodeMem r.code o h) rfl fun ho =>
      bind_of_eq_ok ho _
  | ldea r o =>
    exact readBack_reg_field (fun r => .ldea r o) r [0x8D] (takeMem_encodeMem r.code o h) rfl fun ho =>
      bind_of_eq_ok ho _
  | movDs1RegMem r o =>
    exact readBack_reg_field (fun r => .movDs1RegMem r o) r [0xC4] (takeMem_encodeMem r.code o h) rfl fun ho =>
      bind_of_eq_ok ho _
  | movDs0RegMem r o =>
    exact readBack_reg_field (fun r => .movDs0RegMem r o) r [0xC5] (takeMem_encodeMem r.code o h) rfl fun ho =>
      bind_of_eq_ok ho _
  | fpo2Reg x y z => exact readBack_fpo2Reg x y z
  | fpo2Mem x y o => exact readBack_fpo2Mem x y h
  | fpo1Reg x y z => exact readBack_fpo1Reg x y z
  | fpo1Mem x y o => exact readBack_fpo1Mem x y h
  | xchRegReg w r b =>
    exact readBack_reg_field (fun r => .xchRegReg w r b) r [opW 0x86 w] (takeRM_encodeRM r.code (.reg b) rfl) rfl
      fun ho => by cases w <;> exact bind_of_eq_ok ho _
  | xchMemReg w o r =>
    exact readBack_reg_field (fun r => .xchMemReg w o r) r [opW 0x86 w] (takeRM_encodeRM r.code (.mem o) h) rfl
      fun ho => by cases w <;> exact bind_of_eq_ok ho _
  | movRmReg w o r =>
    exact readBack_reg_field (fun r => .movRmReg w o r) r [opW 0x88 w] (takeRM_encodeRM r.code o h) rfl fun ho => by
      cases w <;> exact bind_of_eq_ok ho _
  | movRegReg w r b =>
    exact readBack_reg_field (fun r => .movRegReg w r b) r [opW 0x8A w] (takeRM_encodeRM r.code (.reg b) rfl) rfl
      fun ho => by cases w <;> exact bind_of_eq_ok ho _
  | movRegMem w r o =>
    exact readBack_reg_field (fun r => .movRegMem w r o) r [opW 0x8A w] (takeRM_encodeRM r.code (.mem o) h) rfl
      fun ho => by cases w <;> exact bind_of_eq_ok ho _
  | movRmSreg o s =>
    exact readBack_field [0x8C] (takeRM_encodeRM (s.code.setWidth 3) o h) rfl fun ho => by
      cases s <;> exact bind_of_eq_ok ho _
  | movSregRm s o =>
    exact readBack_field [0x8E] (takeRM_encodeRM (s.toSReg.code.setWidth 3) o h) rfl fun ho => by
      cases s <;> exact bind_of_eq_ok ho _
  | xchAwReg r => exact readBack_xchAwReg (bne_iff_ne.mp h)
  | movAccDmem w a =>
    exact readBack_field [opW 0xA0 w] (takeWord_wordBytes a) rfl fun ha => by
      cases w <;> exact bind_of_eq_ok ha _
  | movDmemAcc w a =>
    exact readBack_field [opW 0xA2 w] (takeWord_wordBytes a) rfl fun ha => by
      cases w <;> exact bind_of_eq_ok ha _
  | movRegImm r v => exact readBack_movRegImm r v
  | rolOne w o => exact readBack_shiftOne .rol w h
  | rolCl w o => exact readBack_shiftCl .rol w h
  | rolImm w o n => exact readBack_shiftImm .rol w h n
  | rorOne w o => exact readBack_shiftOne .ror w h
  | rorCl w o => exact readBack_shiftCl .ror w h
  | rorImm w o n => exact readBack_shiftImm .ror w h n
  | rolcOne w o => exact readBack_shiftOne .rolc w h
  | rolcCl w o => exact readBack_shiftCl .rolc w h
  | rolcImm w o n => exact readBack_shiftImm .rolc w h n
  | rorcOne w o => exact readBack_shiftOne .rorc w h
  | rorcCl w o => exact readBack_shiftCl .rorc w h
  | rorcImm w o n => exact readBack_shiftImm .rorc w h n
  | shlOne w o => exact readBack_shiftOne .shl w h
  | shlCl w o => exact readBack_shiftCl .shl w h
  | shlImm w o n => exact readBack_shiftImm .shl w h n
  | shrOne w o => exact readBack_shiftOne .shr w h
  | shrCl w o => exact readBack_shiftCl .shr w h
  | shrImm w o n => exact readBack_shiftImm .shr w h n
  | shraOne w o => exact readBack_shiftOne .shra w h
  | shraCl w o => exact readBack_shiftCl .shra w h
  | shraImm w o n => exact readBack_shiftImm .shra w h n
  | movMemImm o v => exact readBack_movMemImm h v
  | test1Cl w o => exact readBack_bitCl .test1 w h
  | test1Imm w o n => exact readBack_bitImm .test1 w h n
  | clr1Cl w o => exact readBack_bitCl .clr1 w h
  | clr1Imm w o n => exact readBack_bitImm .clr1 w h n
  | set1Cl w o => exact readBack_bitCl .set1 w h
  | set1Imm w o n => exact readBack_bitImm .set1 w h n
  | not1Cl w o => exact readBack_bitCl .not1 w h
  | not1Imm w o n => exact readBack_bitImm .not1 w h n
  | rol4 o => exact readBack_field [0x0F, 0x28] (takeRM0_encodeRM o h) rfl fun ho => bind_of_eq_ok ho _
  | ror4 o => exact readBack_field [0x0F, 0x2A] (takeRM0_encodeRM o h) rfl fun ho => bind_of_eq_ok ho _
  | insRegReg r l =>
    exact readBack_reg_field (fun l => .insRegReg r l) l [0x0F, 0x31] (takeRegs_encodeRM l.code r) rfl fun ho =>
      bind_of_eq_ok ho _
  | extRegReg r l =>
    exact readBack_reg_field (fun l => .extRegReg r l) l [0x0F, 0x33] (takeRegs_encodeRM l.code r) rfl fun ho =>
      bind_of_eq_ok ho _
  | insRegImm r n => exact readBack_field_tail [0x0F, 0x39] (takeRegs_encodeRM 0 r) rfl fun ho => bind_of_eq_ok ho _
  | extRegImm r n => exact readBack_field_tail [0x0F, 0x3B] (takeRegs_encodeRM 0 r) rfl fun ho => bind_of_eq_ok ho _
  | brkem v =>
    obtain rfl := eq_of_beq hi
    obtain rfl := Option.some.inj hm
    exact fun _ => rfl
  | brkxa v | retxa v =>
    obtain rfl := eq_of_beq hi
    obtain rfl := Option.some.inj hm
    exact fun _ => rfl
  | calln _ | retem =>
    obtain rfl := eq_of_beq hi
    cases hm
  | undefC0 w md mem => exact readBack_undefC0 w md mem
  | undefD0 w md mem => exact readBack_undefD0 w md mem
  | undefD2 w md mem => exact readBack_undefD2 w md mem
  | undefF6 w md mem => exact readBack_undefF6 w md mem
  | undefFF md mem => exact readBack_undefFF md mem
  | undefFE md sub mem => exact readBack_undefFE md mem (of_decide_eq_true h)
  | undef0F b =>
    simp only [Instr.operandsOk, hm, Bool.not_eq_true'] at h
    exact decodeGroup3_undefined h
  | undefCvt w b => exact readBack_undefCvt w (bne_iff_ne.mp h)
  | pushPsw | popPsw | pushR | popR | pushImm8 _ | dispose | segDs1 | segPs | segSs | segDs0 | adj4a | adj4s | adjba
  | adjbs | repnc | repc | bv _ | bnv _ | bc _ | bnc _ | be _ | bne _ | bnh _ | bh _ | bn _ | bp _ | bpe _ | bpo _
  | blt _ | bge _ | ble _ | bgt _ | dbnzne _ | dbnze _ | dbnz _ | bcwz _ | nop | cvtbw | cvtwl | poll | movPswAh
  | movAhPsw | ret | retFar | brk3 | brkImm _ | brkv | reti | cvtbd | cvtdb | trans | brShort _ | buslock | repne | rep
  | halt | not1Cy | clr1Cy | set1Cy | di | ei | clr1Dir | set1Dir | add4s | sub4s | cmp4s | undef63 | undefD6
  | undefF1 => exact fun _ => rfl
  | inm w | outm w | movbk w | cmpbk w | stm w | ldm w | cmpm w | inAccImm w _ | outImmAcc w _ | inAccDw w
  | outDwAcc w => cases w <;> exact fun _ => rfl

/-- The emulation-mode map holds CALLN and RETEM alone (R96, R97). -/
theorem inMap_emulation {i : Instr} (h : i.inMap .emulation = true) : (∃ v, i = .calln v) ∨ i = .retem := by
  cases i with
  | calln v => exact .inl ⟨v, rfl⟩
  | retem => exact .inr rfl
  | _ => exact Bool.noConfusion h

/-- Settles O6: an instruction of a native-mode map is read back by its class, and CALLN and RETEM, which alone stand in
the emulation-mode map, by computation. -/
theorem decodeReadsBackEncode : Obligations.DecodeReadsBackEncode := by
  intro m i rest h
  obtain ⟨hi, hok⟩ : i.inMap m = true ∧ i.operandsOk m = true := Bool.and_eq_true_iff.mp h
  cases hm : m.nativeCls with
  | some c => rw [decode_eq_decodeFrom hm, readBack_of_operandsOk hm hi hok]
  | none =>
    obtain rfl : m = .emulation := by cases m with
      | emulation => rfl
      | emuNative | xaNative => cases hm
    obtain ⟨v, rfl⟩ | rfl := inMap_emulation hi <;> rfl

theorem decode_encode {m : CodeMap} {i : Instr} (h : i.wf m = true) : decode m (encode i) = .ok (i, []) := by
  have hread := decodeReadsBackEncode m i [] h
  rwa [List.append_nil] at hread

/-- Settles O5: each of the words is the encoding of its instruction, so it is read back. -/
theorem specWordsDecode : Obligations.SpecWordsDecode :=
  ⟨decode_encode (i := .movRegReg .word .aw .bw) rfl,
    decode_encode (i := .movRmReg .byte (.mem (.based .iy)) .dw) rfl,
    decode_encode (i := .movMemImm (.direct 0x2000) (.word 0x1234)) rfl,
    decode_encode (i := .orRmImm (.reg .aw) (.sext83 0x80)) rfl, decode_encode (i := .movbk .word) rfl,
    decode_encode (i := .extRegReg .cw .dw) rfl, decode_encode (i := .rol4 (.reg .bw)) rfl,
    decode_encode (i := .shlImm .word (.mem (.based .iy)) 12) rfl, decode_encode (i := .prepare 6 4) rfl,
    decode_encode (i := .brkem 0x40) rfl, decode_encode (i := .calln 0x40) rfl,
    decode_encode (i := .brMemptr16 (.disp16 .bw 0x1000)) rfl⟩

end Sys2Proof
end

section
/-! PROOFS. The codes that fit no printed word format, the step of a fetched instruction, the codes that wait for the
next instruction and the undefined codes (30_encoding.md): O4, O7, O51 and O52. -/

namespace Sys2Proof

/-! ### Readers that reject -/

/-- A reader that rejects rejects the whole. -/
theorem bind_of_eq_error {α β : Type} {x : Except Reject α} {e : Reject} (h : x = .error e)
    (k : α → Except Reject β) : x >>= k = .error e := by
  rw [h]
  rfl

section
variable {b : Byte} {bs : List Byte}

/-- Two bytes are enough for any displacement, and only `mod = 11` names a register (R76). -/
theorem takeDisp_of_length (md : BitVec 2) (mem : BitVec 3) (h : 2 ≤ bs.length) :
    ∃ rm rest, takeDisp md mem bs = .ok (rm, rest) ∧ (md = 3 ∨ ∃ m, rm = .mem m) := by
  match bs, h with
  | lo :: hi :: tail, _ =>
    unfold takeDisp
    split
    · split
      · exact ⟨_, _, rfl, .inr ⟨_, rfl⟩⟩
      · exact ⟨_, _, rfl, .inr ⟨_, rfl⟩⟩
    · exact ⟨_, _, rfl, .inr ⟨_, rfl⟩⟩
    · exact ⟨_, _, rfl, .inr ⟨_, rfl⟩⟩
    · refine ⟨_, _, rfl, .inl ?_⟩
      revert md
      decide

theorem takeRM_of_length (b : Byte) (h : 2 ≤ bs.length) :
    ∃ rm rest, takeRM (b :: bs) = .ok (midField b, rm, rest) ∧ (modField b = 3 ∨ ∃ m, rm = .mem m) := by
  obtain ⟨rm, rest, hdisp, hmod⟩ := takeDisp_of_length (modField b) (memField b) h
  refine ⟨rm, rest, ?_, hmod⟩
  rw [takeRM, bind_of_eq_ok (takeByte_cons b bs)]
  exact bind_of_eq_ok hdisp _

theorem takeRM_of_mod3 (h : modField b = 3) (bs : List Byte) :
    takeRM (b :: bs) = .ok (midField b, .reg (.ofCode (memField b)), bs) := by
  simp [takeRM, takeDisp, h, bind, Except.bind, pure, Except.pure]

theorem takeMem_of_mod3 (h : modField b = 3) (bs : List Byte) : takeMem (b :: bs) = .error .memoryOnly := by
  rw [takeMem, bind_of_eq_ok (takeRM_of_mod3 h bs)]

theorem takeMem0_of_mod3 (h : modField b = 3) (bs : List Byte) : takeMem0 (b :: bs) = .error .memoryOnly := by
  rw [takeMem0, bind_of_eq_error (takeMem_of_mod3 h bs)]

theorem takeMem0_of_mid_ne (h : modField b ≠ 3) (h0 : midField b ≠ 0) (hlen : 2 ≤ bs.length) :
    takeMem0 (b :: bs) = .error .reservedField := by
  obtain ⟨rm, rest, hrm, hmod | ⟨m, rfl⟩⟩ := takeRM_of_length b hlen
  · exact absurd hmod h
  · have hmem : takeMem (b :: bs) = .ok (midField b, m, rest) := by
      rw [takeMem, bind_of_eq_ok hrm]
      rfl
    rw [takeMem0, bind_of_eq_ok hmem]
    exact if_neg h0

theorem takeRM0_of_mid_ne (h0 : midField b ≠ 0) (hlen : 2 ≤ bs.length) :
    takeRM0 (b :: bs) = .error .reservedField := by
  obtain ⟨rm, rest, hrm, -⟩ := takeRM_of_length b hlen
  rw [takeRM0, bind_of_eq_ok hrm]
  exact if_neg h0

theorem takeRegs_of_mod3 (h : modField b = 3) (bs : List Byte) :
    takeRegs (b :: bs) = .ok (midField b, .ofCode (memField b), bs) := by
  rw [takeRegs, bind_of_eq_ok (takeByte_cons b bs)]
  exact if_pos h

theorem takeRegs_of_mod_ne (h : modField b ≠ 3) (bs : List Byte) : takeRegs (b :: bs) = .error .registerOnly := by
  rw [takeRegs, bind_of_eq_ok (takeByte_cons b bs)]
  exact if_neg h

end

/-! ### Op codes whose operand is rejected -/

section
variable {c : Cls} {op : Byte} {bs rest : List Byte} {e : Reject} {mid : BitVec 3} {rm : RM}

theorem decodeFrom_of_takeMem_error (hop : op ∈ ([0x8D, 0x62, 0xC4, 0xC5] : List Byte))
    (h : takeMem bs = .error e) : decodeFrom c (op :: bs) = .error e := by
  simp only [List.mem_cons, List.not_mem_nil, or_false] at hop
  obtain rfl | rfl | rfl | rfl := hop <;> exact bind_of_eq_error h _

theorem decodeFrom_of_takeMem0_error (hop : op ∈ ([0x8F, 0xC6, 0xC7] : List Byte))
    (h : takeMem0 bs = .error e) : decodeFrom c (op :: bs) = .error e := by
  simp only [List.mem_cons, List.not_mem_nil, or_false] at hop
  obtain rfl | rfl | rfl := hop <;> exact bind_of_eq_error h _

theorem decodeFrom_of_takeRegs_error (hop : op ∈ ([0x31, 0x33, 0x39, 0x3B] : List Byte))
    (h : takeRegs bs = .error e) : decodeFrom c (0x0F :: op :: bs) = .error e := by
  simp only [List.mem_cons, List.not_mem_nil, or_false] at hop
  obtain rfl | rfl | rfl | rfl := hop <;> exact bind_of_eq_error h _

theorem decodeFrom_of_takeRM0_error (hop : 0x10 ≤ op.toNat ∧ op.toNat ≤ 0x1F ∨ op = 0x28 ∨ op = 0x2A)
    (h : takeRM0 bs = .error e) : decodeFrom c (0x0F :: op :: bs) = .error e := by
  obtain ⟨hlo, hhi⟩ | rfl | rfl := hop
  · have hbit : decodeFrom c (0x0F :: op :: bs) = decodeBit op bs := if_pos (by omega)
    rw [hbit, decodeBit]
    exact bind_of_eq_error h _
  · exact bind_of_eq_error h _
  · exact bind_of_eq_error h _

/-- CALL memptr32, BR memptr32 and PUSH mem16 with a register operand (R95 (a)). -/
theorem decodeGroup2Word_register {r : Reg} (hmid : mid = 3 ∨ mid = 5 ∨ mid = 6)
    (h : takeRM bs = .ok (mid, .reg r, rest)) : decodeGroup2Word bs = .error .memoryOnly := by
  obtain ⟨b, tail, rfl, hb⟩ := takeRM_head h
  simp only [decodeGroup2Word, bind_of_eq_ok (takeByte_cons b tail), hb, bind_of_eq_ok h]
  obtain rfl | rfl | rfl := hmid <;> rfl

theorem decodeFrom_insExtImm_of_mid_ne (hop : op = 0x39 ∨ op = 0x3B) (hmid : mid ≠ 0) {r : Reg} {n : Byte}
    (h : takeRegs bs = .ok (mid, r, n :: rest)) : decodeFrom c (0x0F :: op :: bs) = .error .reservedField := by
  obtain rfl | rfl := hop <;> exact (bind_of_eq_ok h _).trans (if_neg hmid)

theorem decodeFrom_movSreg_of_bit2 (hop : op = 0x8C ∨ op = 0x8E) (hmid : mid.getLsbD 2 = true)
    (h : takeRM bs = .ok (mid, rm, rest)) : decodeFrom c (op :: bs) = .error .reservedBit := by
  obtain rfl | rfl := hop <;> exact (bind_of_eq_ok h _).trans (if_pos hmid)

theorem decodeFrom_movPs (h : takeRM bs = .ok (1, rm, rest)) : decodeFrom c (0x8E :: bs) = .error .loadPs :=
  bind_of_eq_ok h _

end

/-! ### Every unprinted code -/

/-- Bit 5 of a byte is the top bit of its middle field. -/
theorem getLsbD_midField (b : Byte) : (midField b).getLsbD 2 = b.getLsbD 5 := by
  simp [midField]

theorem midField_eq_one {b : Byte} (h5 : b.getLsbD 5 = false) (h : sregField b = 1) : midField b = 1 := by
  revert b
  decide

open Machine in
/-- A code that fits no printed word format is rejected, with six bytes to read (R95, R116). -/
theorem decodeFrom_of_unprinted {bytes : List Byte} {r : Reject} (c : Cls) (hlen : 6 ≤ bytes.length)
    (h : Unprinted bytes r) : decodeFrom c bytes = .error r := by
  cases h with
  | memoryOnly op b rest hop h3 =>
    obtain hmem | hmem0 : op ∈ ([0x8D, 0x62, 0xC4, 0xC5] : List Byte) ∨ op ∈ ([0x8F, 0xC6, 0xC7] : List Byte) :=
      List.mem_append.mp hop
    · exact decodeFrom_of_takeMem_error hmem (takeMem_of_mod3 h3 rest)
    · exact decodeFrom_of_takeMem0_error hmem0 (takeMem0_of_mod3 h3 rest)
  | memoryOnlyFF b rest hmid h3 => exact decodeGroup2Word_register hmid (takeRM_of_mod3 h3 rest)
  | reservedField op b rest hop h0 h3 =>
    exact decodeFrom_of_takeMem0_error hop (takeMem0_of_mid_ne h3 h0 (by simp only [List.length_cons] at hlen; omega))
  | reservedField3 op b rest hop h0 =>
    exact decodeFrom_of_takeRM0_error hop (takeRM0_of_mid_ne h0 (by simp only [List.length_cons] at hlen; omega))
  | reservedFieldImm op b rest hop h0 h3 =>
    obtain ⟨n, tail, rfl⟩ : ∃ n tail, rest = n :: tail :=
      List.exists_cons_of_length_pos (by simp only [List.length_cons] at hlen; omega)
    exact decodeFrom_insExtImm_of_mid_ne hop h0 (takeRegs_of_mod3 h3 _)
  | reservedBit op b rest hop h5 =>
    obtain ⟨rm, tail, hrm, -⟩ := takeRM_of_length (bs := rest) b (by simp only [List.length_cons] at hlen; omega)
    exact decodeFrom_movSreg_of_bit2 hop ((getLsbD_midField b).trans h5) hrm
  | registerOnly op b rest hop h3 => exact decodeFrom_of_takeRegs_error hop (takeRegs_of_mod_ne h3 rest)
  | loadPs b rest h5 hps =>
    obtain ⟨rm, tail, hrm, -⟩ := takeRM_of_length (bs := rest) b (by simp only [List.length_cons] at hlen; omega)
    rw [midField_eq_one h5 hps] at hrm
    exact decodeFrom_movPs hrm

end Sys2Proof

namespace Sys2Proof.Machine

/-! ### The step of a fetched instruction -/

theorem State.enter_eq (s : State) (n : Nat) :
    s.enter n = { s with
      pc := s.pc + BitVec.ofNat 16 n, inhibit := false
      start := if s.prefixes = Prefixes.none then s.pc else s.start
      window := if s.prefixes = Prefixes.none then s.inhibit else s.window } := by
  simp only [enter, beq_iff_eq]

/-- With nothing in progress and no interrupt due in the emulation mode, the next instruction is fetched. -/
theorem State.select_eq_fetch {s : State} (hp : s.inProgress = none)
    (hdue : s.emulating = true → s.interruptDue = false) : s.select = s.fetch := by
  have hnot : ¬ (s.emulating && s.interruptDue) = true := by
    rw [Bool.and_eq_true]
    exact fun ⟨he, hd⟩ => Bool.false_ne_true ((hdue he).symm.trans hd)
  simp only [select, hp, if_neg hnot]

theorem State.fetch_of_decode {s : State} {i : Instr} {rest : List Byte}
    (hd : decode s.codeMap s.fetchBytes = .ok (i, rest)) (hs : s.staleFetch (fetchLength - rest.length) = false) :
    s.fetch = .ok (i, s.enter (fetchLength - rest.length)) := by
  simp [fetch, hd, hs]

/-- Bytes that decode to nothing refuse the fetch, by the reason the decoder names. -/
theorem State.fetch_of_reject {s : State} {r : Reject} (hr : r ≠ .emulationCode)
    (hd : decode s.codeMap s.fetchBytes = .error r) : s.fetch = .error (.undecodable r) := by
  unfold fetch
  rw [hd]
  cases r with
  | emulationCode => exact absurd rfl hr
  | truncated | memoryOnly | reservedField | reservedBit | registerOnly | loadPs => rfl

theorem step_of_select_error {s : State} {r : Refusal} (hh : s.halted = false) (hs : s.select = .error r) :
    step s = .refused r := by
  simp [step, hh, hs]

/-- Settles O4: the step selects the fetched instruction, which `enter` puts where PC is past it. -/
theorem stepRunsDecodedInstruction : Obligations.StepRunsDecodedInstruction := by
  intro s i rest hh hp hdue hd hs n u
  have hselect : s.select = .ok (i, u) := by
    rw [State.select_eq_fetch hp hdue, State.fetch_of_decode hd hs, State.enter_eq]
    rfl
  simp only [step, hh, hselect, Bool.false_eq_true, if_false] <;> rfl

/-! ### Rejected codes stop the step -/

theorem State.codeMap_of_native {s : State} (h : s.emulating = false) : s.codeMap ≠ .emulation := by
  cases hc : s.cls with
  | xa => simp [codeMap, hc]
  | emu =>
    have hmd : s.psw.md = true := by simpa [emulating, hc] using h
    simp [codeMap, hc, hmd]

theorem State.length_fetchBytes (s : State) : s.fetchBytes.length = 6 := by
  rw [fetchBytes, List.length_map, List.length_range, fetchLength]

theorem Unprinted.ne_emulationCode {bytes : List Byte} {r : Reject} (h : Unprinted bytes r) : r ≠ .emulationCode := by
  cases h <;> exact Reject.noConfusion

theorem decode_of_unprinted {m : CodeMap} {bytes : List Byte} {r : Reject} (hm : m ≠ .emulation)
    (hlen : 6 ≤ bytes.length) (h : Unprinted bytes r) : decode m bytes = .error r := by
  cases hc : m.nativeCls with
  | some c => rw [decode_eq_decodeFrom hc, decodeFrom_of_unprinted c hlen h]
  | none => cases m with
    | emulation => exact absurd rfl hm
    | emuNative | xaNative => cases hc

/-- Settles O7: the decoder rejects each of the codes by its reader, and the fetch hands the reason on. -/
theorem unprintedCodesAreRejected : Obligations.UnprintedCodesAreRejected := by
  refine ⟨fun m bytes r hm hlen h => decode_of_unprinted hm hlen h, fun s r hh hp hn h => ?_⟩
  have hd : decode s.codeMap s.fetchBytes = .error r :=
    decode_of_unprinted (State.codeMap_of_native hn) (Nat.le_of_eq (State.length_fetchBytes s).symm) h
  have hnot : s.emulating = true → s.interruptDue = false := fun he => absurd (hn.symm.trans he) Bool.false_ne_true
  apply step_of_select_error hh
  rw [State.select_eq_fetch hp hnot, State.fetch_of_reject h.ne_emulationCode hd]

/-! ### Codes that wait for the next instruction, and undefined codes -/

theorem exec_segDs1_eq (s : State) : exec .segDs1 s = .next (s.setOverride .ds1) := rfl
theorem exec_segPs_eq (s : State) : exec .segPs s = .next (s.setOverride .ps) := rfl
theorem exec_segSs_eq (s : State) : exec .segSs s = .next (s.setOverride .ss) := rfl
theorem exec_segDs0_eq (s : State) : exec .segDs0 s = .next (s.setOverride .ds0) := rfl
theorem exec_rep_eq (s : State) : exec .rep s = .next (s.setRepeat .rep) := rfl
theorem exec_repne_eq (s : State) : exec .repne s = .next (s.setRepeat .repne) := rfl
theorem exec_repc_eq (s : State) : exec .repc s = .next (s.setRepeat .repc) := rfl
theorem exec_repnc_eq (s : State) : exec .repnc s = .next (s.setRepeat .repnc) := rfl

theorem State.setOverride_eq (s : State) (r : SReg) :
    s.setOverride r = { s with prefixes := { s.prefixes with override := some r }, inhibit := true } := rfl

theorem State.setRepeat_eq (s : State) (r : Rep) :
    s.setRepeat r = { s with prefixes := { s.prefixes with repeated := some r }, inhibit := true } := rfl

theorem exec_buslock_eq (s : State) :
    exec .buslock s = .next { s with prefixes := { s.prefixes with locked := true }, inhibit := true } := rfl

/-- Settles O51: each of the nine codes sets its own field of `prefixes` and opens the window, and `finish` does nothing
after it. -/
theorem prefixesPutThemselvesInForce : Obligations.PrefixesPutThemselvesInForce := by
  intro s i f h
  obtain ⟨rfl, rfl⟩ | ⟨rfl, rfl⟩ | ⟨rfl, rfl⟩ | ⟨rfl, rfl⟩ | ⟨rfl, rfl⟩ | ⟨rfl, rfl⟩ | ⟨rfl, rfl⟩ | ⟨rfl, rfl⟩ |
    ⟨rfl, rfl⟩ := h
  · exact ⟨by rw [exec_segDs1_eq, State.setOverride_eq], fun _ _ => finish_prefix rfl⟩
  · exact ⟨by rw [exec_segPs_eq, State.setOverride_eq], fun _ _ => finish_prefix rfl⟩
  · exact ⟨by rw [exec_segSs_eq, State.setOverride_eq], fun _ _ => finish_prefix rfl⟩
  · exact ⟨by rw [exec_segDs0_eq, State.setOverride_eq], fun _ _ => finish_prefix rfl⟩
  · exact ⟨by rw [exec_rep_eq, State.setRepeat_eq], fun _ _ => finish_prefix rfl⟩
  · exact ⟨by rw [exec_repne_eq, State.setRepeat_eq], fun _ _ => finish_prefix rfl⟩
  · exact ⟨by rw [exec_repc_eq, State.setRepeat_eq], fun _ _ => finish_prefix rfl⟩
  · exact ⟨by rw [exec_repnc_eq, State.setRepeat_eq], fun _ _ => finish_prefix rfl⟩
  · exact ⟨exec_buslock_eq s, fun _ _ => finish_prefix rfl⟩

/-- Settles O52: the meaning of each of these codes is the refusal, whatever its fields and the state. -/
theorem undefinedCodesStop : Obligations.UndefinedCodesStop :=
  fun _ _ _ _ _ _ => ⟨rfl, rfl, rfl, rfl, rfl, rfl, rfl, rfl, rfl, rfl, rfl⟩

end Sys2Proof.Machine
end

section
/-! PROOFS. MOV in its general forms, the moves of segment registers and XCH (40_data_transfer.md): O28, O29 and O30. -/

namespace Sys2Proof.Machine

/-! ### Operands -/

/-- A write to an operand holds its value, changes nothing else, no flag and nothing undefined. -/
theorem writeRM_complete (s : State) (w : Width) (dst : RM) (v : BitVec w.bits) :
    Writes w dst v s (s.writeRM w dst v) ∧ (s.writeRM w dst v).psw = s.psw ∧ (s.writeRM w dst v).draws = s.draws :=
  State.writeRM_writes s s.psw s.draws w dst v

/-- The register just written reads as the value (R7, R8). -/
theorem reg_setReg (s : State) (w : Width) (r : Reg) (v : BitVec w.bits) : (s.setReg w r v).reg w r = v :=
  (State.setReg_writes s w r v).1

/-- Every other register of the width reads as before (R7, R8). -/
theorem reg_setReg_ne (s : State) (w : Width) {r q : Reg} (v : BitVec w.bits) (h : q ≠ r) :
    (s.setReg w r v).reg w q = s.reg w q := by
  obtain ⟨-, honly, -⟩ := State.setReg_writes s w r v
  cases w with
  | byte => exact honly.1 q h
  | word => exact honly q h

/-- A write to a register reaches nothing but the registers. -/
theorem setReg_registerFrame (s : State) (w : Width) (r : Reg) (v : BitVec w.bits) :
    RegisterFrame s (s.setReg w r v) := by
  obtain ⟨-, -, hframe, -⟩ := State.setReg_writes s w r v
  exact hframe

/-- Two changes of the registers, one after the other, are one. -/
theorem RegisterFrame.trans {s t u : State} (hu : RegisterFrame s u) (ht : RegisterFrame u t) : RegisterFrame s t :=
  Eq.trans ht (by rw [hu])

/-! ### MOV -/

/-- Every form of MOV is the one write of its value to its destination (R111 to R119). -/
theorem MoveForm.exec_eq {s : State} {i : Instr} {w : Width} {dst : RM} {v : BitVec w.bits}
    (h : MoveForm s i w dst v) : exec i s = .next (s.writeRM w dst v) := by
  cases h <;> rfl

/-- Settles O28: every form is one write to an operand. -/
theorem moveWritesItsDestination : Obligations.MoveWritesItsDestination := by
  intro s i w dst v h
  obtain ⟨hwrites, hpsw, hdraws⟩ := writeRM_complete s w dst v
  exact ⟨_, h.exec_eq, hpsw, hdraws, hwrites⟩

/-! ### Segment registers -/

/-- MOV sreg loads the segment register and opens the window (R116, R412). -/
theorem exec_movSregRm_eq (s : State) (g : DataSReg) (o : RM) :
    exec (.movSregRm g o) s = .next (s.setSreg g (s.readRM .word o)).openWindow := rfl

/-- MOV from a segment register writes its value to the operand and opens the window (R117, R412). -/
theorem exec_movRmSreg_eq (s : State) (o : RM) (g : SReg) :
    exec (.movRmSreg o g) s = .next (s.writeRM .word o (segmentValue s g)).openWindow := by
  rw [← sreg_eq_segmentValue]
  rfl

/-- POP sreg loads the segment register from the stack top, moves SP past it and opens the window (R340, R412). -/
theorem exec_popSreg_eq (s : State) (g : DataSReg) :
    exec (.popSreg g) s = .next (({ s with sp := s.sp + 2 } : State).setSreg g (s.readWord s.ss s.sp)).openWindow :=
  rfl

/-- MOV DS0 with a pointer reads both words before it writes: the low-order word goes to the register, the high-order
word to DS0 (R120). -/
theorem exec_movDs0RegMem_eq (s : State) (r : Reg) (m : MemArg) :
    exec (.movDs0RegMem r m) s =
      .next ((s.setReg16 r (s.readWord (s.eaSeg m) (s.ea m))).setSreg .ds0
        (s.readWord (s.eaSeg m) (s.ea m + 2))).openWindow := rfl

/-- MOV DS1 with a pointer (R120). -/
theorem exec_movDs1RegMem_eq (s : State) (r : Reg) (m : MemArg) :
    exec (.movDs1RegMem r m) s =
      .next ((s.setReg16 r (s.readWord (s.eaSeg m) (s.ea m))).setSreg .ds1
        (s.readWord (s.eaSeg m) (s.ea m + 2))).openWindow := rfl

/-- The general registers do not depend on the segment registers (R7, R12). -/
@[simp] theorem reg16_setSreg (s : State) (g : DataSReg) (v : Word) (r : Reg) :
    (s.setSreg g v).reg16 r = s.reg16 r := by
  cases g <;> cases r <;> rfl

/-- The general registers do not depend on the window. -/
@[simp] theorem reg16_openWindow (s : State) (r : Reg) : s.openWindow.reg16 r = s.reg16 r := by
  cases r <;> rfl

/-- After the load of a pointer the register holds its word, and beside it only the segment register and the window
are written (R120). -/
theorem loadPointer_spec (s : State) (r : Reg) (g : DataSReg) (v x : Word) :
    let t := ((s.setReg16 r v).setSreg g x).openWindow
    t.reg16 r = v ∧ t = ((s.setReg16 r (t.reg16 r)).setSreg g x).openWindow := by
  intro t
  have hreg : t.reg16 r = v := by simp [t]
  exact ⟨hreg, by rw [hreg]⟩

/-- Settles O29: each move is one load or one write with the window opened, and the load of a pointer is the same for
both segment registers. -/
theorem segmentLoadsOpenTheWindow : Obligations.SegmentLoadsOpenTheWindow := by
  intro s g o r m
  obtain ⟨hwrites, hpsw, hdraws⟩ := writeRM_complete s .word o (segmentValue s g)
  obtain ⟨hreg0, hframe0⟩ := loadPointer_spec s r .ds0 (s.readWord (s.eaSeg m) (s.ea m))
    (s.readWord (s.eaSeg m) (s.ea m + 2))
  obtain ⟨hreg1, hframe1⟩ := loadPointer_spec s r .ds1 (s.readWord (s.eaSeg m) (s.ea m))
    (s.readWord (s.eaSeg m) (s.ea m + 2))
  exact ⟨exec_movSregRm_eq s .ds1 o, exec_movSregRm_eq s .ss o, exec_movSregRm_eq s .ds0 o,
    ⟨_, _, exec_movRmSreg_eq s o g, hwrites, hpsw, hdraws, rfl⟩,
    ⟨_, exec_movDs0RegMem_eq s r m, hreg0, rfl, hframe0⟩, ⟨_, exec_movDs1RegMem_eq s r m, hreg1, rfl, hframe1⟩,
    exec_popSreg_eq s .ds1, exec_popSreg_eq s .ss, exec_popSreg_eq s .ds0⟩

/-! ### XCH -/

/-- XCH reads both registers before it writes either (R125). -/
theorem exec_xchRegReg_eq (s : State) (w : Width) (a b : Reg) :
    exec (.xchRegReg w a b) s = .next ((s.setReg w a (s.reg w b)).setReg w b (s.reg w a)) := rfl

/-- XCH reads the memory operand before it writes either operand (R126). -/
theorem exec_xchMemReg_eq (s : State) (w : Width) (m : MemArg) (a : Reg) :
    exec (.xchMemReg w m a) s = .next ((s.writeRM w (.mem m) (s.reg w a)).setReg w a (s.readEA w m)) := rfl

/-- XCH AW, reg16 is the exchange of two word registers of which the first is AW (R127). -/
theorem exec_xchAwReg_eq (s : State) (a : Reg) : exec (.xchAwReg a) s = exec (.xchRegReg .word .aw a) s := rfl

/-- Each register holds what the other held, also where both are the same register (R125). -/
theorem reg_exchanged (s : State) (w : Width) (a b : Reg) :
    ((s.setReg w a (s.reg w b)).setReg w b (s.reg w a)).reg w a = s.reg w b := by
  by_cases h : a = b
  · rw [h, reg_setReg]
  · rw [reg_setReg_ne _ w _ h, reg_setReg]

/-- XCH of two registers swaps them and changes nothing else (R125). -/
theorem exec_xchRegReg_swaps (s : State) (w : Width) (a b : Reg) :
    ∃ t, exec (.xchRegReg w a b) s = .next t ∧ t.reg w a = s.reg w b ∧ t.reg w b = s.reg w a ∧
      (∀ q, q ≠ a → q ≠ b → t.reg w q = s.reg w q) ∧
      (w = .byte → t.sp = s.sp ∧ t.bp = s.bp ∧ t.ix = s.ix ∧ t.iy = s.iy) ∧ RegisterFrame s t ∧ t.psw = s.psw ∧
      t.draws = s.draws := by
  refine ⟨_, exec_xchRegReg_eq s w a b, reg_exchanged s w a b, reg_setReg _ w b _, fun q ha hb => ?_, fun hw => ?_,
    (setReg_registerFrame s w a _).trans (setReg_registerFrame _ w b _), ?_, ?_⟩
  · rw [reg_setReg_ne _ w _ hb, reg_setReg_ne _ w _ ha]
  · subst hw
    simp [State.setReg]
  · rw [State.setReg_psw, State.setReg_psw]
  · rw [State.setReg_draws, State.setReg_draws]

/-- XCH of a memory operand and a register: the register goes to memory, then the operand of the state before to the
register (R126). -/
theorem exec_xchMemReg_swaps (s : State) (w : Width) (m : MemArg) (a : Reg) :
    ∃ u t, exec (.xchMemReg w m a) s = .next t ∧ Writes w (.mem m) (s.reg w a) s u ∧
      Writes w (.reg a) (s.readEA w m) u t ∧ t.psw = s.psw ∧ t.draws = s.draws := by
  obtain ⟨hmem, hmpsw, hmdraws⟩ := writeRM_complete s w (.mem m) (s.reg w a)
  obtain ⟨hreg, hrpsw, hrdraws⟩ := setReg_complete (s.writeRM w (.mem m) (s.reg w a)) w a (s.readEA w m)
  exact ⟨_, _, exec_xchMemReg_eq s w m a, hmem, hreg, hrpsw.trans hmpsw, hrdraws.trans hmdraws⟩

/-- Settles O30: the form with AW is the exchange of two word registers, and the form with memory is two writes. -/
theorem exchangeSwapsOperands : Obligations.ExchangeSwapsOperands := by
  intro s w a b m
  obtain ⟨t, hexec, haw, ha, hother, -, hframe, hpsw, hdraws⟩ := exec_xchRegReg_swaps s .word .aw a
  exact ⟨exec_xchRegReg_swaps s w a b, exec_xchMemReg_swaps s w m a,
    ⟨t, (exec_xchAwReg_eq s a).trans hexec, ha, haw, fun q hqa hqaw => hother q hqaw hqa, hframe, hpsw, hdraws⟩⟩

end Sys2Proof.Machine
end

section
/-! PROOFS. A difference and its flags (R21 to R26, R31), which the compares among the block instructions rest on. -/

namespace Sys2Proof.Machine

/-! ### The difference, its borrow and its overflow -/

/-- Two subtractions modulo `m`, the second of a borrow: `m` is added where they go below 0. -/
theorem sub_borrow_mod {m x y z : Nat} (hx : x < m) (hy : y < m) (hz : z ≤ 1) (hzm : z < m) :
    (m - z + (m - y + x)) % m + y + z = x + if x < y + z then m else 0 := by
  split
  · rw [show m - z + (m - y + x) = x + m - (y + z) + m by omega, Nat.add_mod_right, Nat.mod_eq_of_lt (by omega)]
    omega
  · rw [show m - z + (m - y + x) = x - (y + z) + m + m by omega, Nat.add_mod_right, Nat.add_mod_right,
      Nat.mod_eq_of_lt (by omega)]
    omega

section Difference

variable {n : Nat} (hn : 0 < n)
include hn

/-- A difference is 2^n above the true one where there is a borrow, else it is the true one. -/
theorem subResult_toNat (a b : BitVec n) (c : Bool) :
    (subResult a b c).toNat + b.toNat + c.toNat = a.toNat + if a.toNat < b.toNat + c.toNat then 2 ^ n else 0 := by
  have hc : c.toNat < 2 ^ n := Nat.lt_of_le_of_lt c.toNat_le (Nat.one_lt_two_pow (Nat.pos_iff_ne_zero.mp hn))
  have hbit : (bit n c).toNat = c.toNat := by
    rw [bit, BitVec.toNat_setWidth, BitVec.toNat_ofBool, Nat.mod_eq_of_lt hc]
  rw [subResult, BitVec.toNat_sub, BitVec.toNat_sub, hbit, Nat.add_mod_mod]
  exact sub_borrow_mod a.isLt b.isLt c.toNat_le hc

/-- A difference is the true one modulo 2^n. -/
theorem subResult_toNat_emod (a b : BitVec n) (c : Bool) :
    ((subResult a b c).toNat : Int) = ((a.toNat : Int) - b.toNat - c.toNat) % 2 ^ n := by
  have hnat := subResult_toNat hn a b c
  have hlt := (subResult a b c).isLt
  have hcast : ((2 ^ n : Nat) : Int) = 2 ^ n := by push_cast; rfl
  rw [← hcast]
  generalize 2 ^ n = m at hnat hlt ⊢
  split at hnat
  · rw [← Int.add_emod_right, Int.emod_eq_of_lt (by omega) (by omega)]
    omega
  · rw [Int.emod_eq_of_lt (by omega) (by omega)]
    omega

/-- The signed value is the unsigned one, less 2^n from 2^(n-1) on. -/
theorem toInt_eq_sub_of_top (a : BitVec n) :
    a.toInt = a.toNat - if 2 ^ (n - 1) ≤ a.toNat then ((2 * 2 ^ (n - 1) : Nat) : Int) else 0 := by
  rw [BitVec.toInt_eq_msb_cond, BitVec.msb_eq_decide, Nat.mul_comm, Nat.two_pow_pred_mul_two hn]
  by_cases h : 2 ^ (n - 1) ≤ a.toNat
  · rw [if_pos (decide_eq_true h), if_pos h]
  · rw [if_neg (by rwa [decide_eq_true_iff]), if_neg h, Int.sub_zero]

/-- V of a difference: the operands have different signs and the result has not that of the first, exactly if the true
difference is no signed value of the width (R23). -/
theorem subResult_overflow_iff (a b : BitVec n) (c : Bool) :
    (a.msb != b.msb && (subResult a b c).msb != a.msb) = true ↔ ¬ FitsSigned n (a.toInt - b.toInt - c.toNat) := by
  have hborrow := subResult_toNat hn a b c
  have hc := c.toNat_le
  have hpow : 2 ^ n = 2 * 2 ^ (n - 1) := by rw [Nat.mul_comm, Nat.two_pow_pred_mul_two hn]
  have hcast : ((2 ^ (n - 1) : Nat) : Int) = 2 ^ (n - 1) := by push_cast; rfl
  have hra := (subResult a b c).isLt
  have haa := a.isLt
  have hba := b.isLt
  rw [hpow] at hborrow hra haa hba
  simp only [BitVec.msb_eq_decide, Bool.and_eq_true, bne_iff_ne, ne_eq, decide_eq_decide]
  rw [FitsSigned, ← hcast, toInt_eq_sub_of_top hn a, toInt_eq_sub_of_top hn b]
  generalize 2 ^ (n - 1) = m at hborrow hra haa hba ⊢
  split at hborrow
  · omega
  · omega

end Difference

/-! ### The flags -/

/-- S, Z and P are set as the spec says (R24, R25, R26). -/
theorem setSZP_signZeroParity {n : Nat} (f : Psw) (r : BitVec n) : SignZeroParity r (setSZP f r) := by
  have hlow : (List.range 8).filter (r.setWidth 8).getLsbD = (List.range 8).filter r.getLsbD := by
    refine List.filter_congr fun k hk => ?_
    rw [BitVec.getLsbD_setWidth, decide_eq_true (List.mem_range.mp hk), Bool.true_and]
  refine ⟨BitVec.msb_eq_getLsbD_last r, ?_, ?_⟩
  · rw [setSZP, beq_iff_eq, ← BitVec.toNat_inj]
    rfl
  · rw [setSZP, evenParity, beq_iff_eq, List.countP_eq_length_filter, hlow]

/-- The flags of a difference are those the spec gives it (R21 to R26). -/
theorem subFlags_isDifference {n : Nat} (hn : 0 < n) (f : Psw) (a b : BitVec n) (c : Bool) :
    SameControlFlags f (subFlags f a b c) ∧ IsDifference a b c (subResult a b c) (subFlags f a b c) ∧
      BorrowIn a b c (subFlags f a b c) :=
  ⟨⟨rfl, rfl, rfl, rfl⟩,
    ⟨subResult_toNat_emod hn a b c, decide_eq_true_iff, subResult_overflow_iff hn a b c, setSZP_signZeroParity f _⟩,
    decide_eq_true_iff⟩

/-- The flags of a compare are those of the difference of its operands (R185). -/
theorem subFlags_cmp (w : Width) (f : Psw) (a b : BitVec w.bits) :
    AluResult .cmp a b (subResult a b false) f (subFlags f a b false) := by
  have hbits : 0 < w.bits := by cases w <;> decide
  exact subFlags_isDifference hbits f a b false

end Sys2Proof.Machine
end

section
/-! PROOFS. The block instructions, alone and under a repeat prefix, and the boundary between two steps of an instruction
in progress (41_block_and_repeat.md): O32, O34 and O55. -/

namespace Sys2Proof.Machine

/-! ### One element -/

theorem exec_movbk_eq (s : State) (w : Width) : exec (.movbk w) s = runBlock (.movbk w) false (movbkElement w) s := rfl
theorem exec_cmpbk_eq (s : State) (w : Width) : exec (.cmpbk w) s = runBlock (.cmpbk w) true (cmpbkElement w) s := rfl
theorem exec_cmpm_eq (s : State) (w : Width) : exec (.cmpm w) s = runBlock (.cmpm w) true (cmpmElement w) s := rfl
theorem exec_ldm_eq (s : State) (w : Width) : exec (.ldm w) s = runBlock (.ldm w) false (ldmElement w) s := rfl
theorem exec_stm_eq (s : State) (w : Width) : exec (.stm w) s = runBlock (.stm w) false (stmElement w) s := rfl

/-- One element of MOVBK: the source is stored at DS1:IY, and both index registers step (R146). -/
theorem movbkElement_spec (s : State) (w : Width) :
    let t := movbkElement w s
    Stored w s.ds1 s.iy (s.readMem w s.srcSeg s.ix) s t ∧ OnlyStored w s.ds1 s.iy s t ∧
      t = { s with ix := stepped s w s.ix, iy := stepped s w s.iy, mem := t.mem, stores := t.stores } := by
  refine ⟨State.writeMem_stored s w _ _ _, State.writeMem_only s w _ _ _, ?_⟩
  rw [movbkElement, stepIndex_eq_stepped, stepIndex_eq_stepped, State.writeMem_eq]

/-- One element of STM: the accumulator is stored at DS1:IY, and IY steps (R150). -/
theorem stmElement_spec (s : State) (w : Width) :
    let t := stmElement w s
    Stored w s.ds1 s.iy (s.reg w .aw) s t ∧ OnlyStored w s.ds1 s.iy s t ∧
      t = { s with iy := stepped s w s.iy, mem := t.mem, stores := t.stores } := by
  refine ⟨State.writeMem_stored s w _ _ _, State.writeMem_only s w _ _ _, ?_⟩
  rw [stmElement, stepIndex_eq_stepped, State.writeMem_eq]

/-- One element of LDM: the accumulator takes the source, and IX steps (R149). -/
theorem ldmElement_spec (s : State) (w : Width) :
    let t := ldmElement w s
    t.reg w .aw = s.readMem w s.srcSeg s.ix ∧ (w = .byte → t.ah = s.ah) ∧
      t = { s with ix := stepped s w s.ix, aw := t.aw } := by
  obtain ⟨hah, haw⟩ := setReg_accumulator s w (s.readMem w s.srcSeg s.ix)
  refine ⟨?_, hah, ?_⟩
  · rw [← reg_setReg s w .aw (s.readMem w s.srcSeg s.ix)]
    cases w <;> rfl
  · rw [ldmElement, stepIndex_eq_stepped, haw]

/-- One element of CMPBK: the flags of the source minus the element at DS1:IY, and both index registers step (R147). -/
theorem cmpbkElement_spec (s : State) (w : Width) :
    let t := cmpbkElement w s
    AluResult .cmp (s.readMem w s.srcSeg s.ix) (s.readMem w s.ds1 s.iy)
        (subResult (s.readMem w s.srcSeg s.ix) (s.readMem w s.ds1 s.iy) false) s.psw t.psw ∧
      t = { s with ix := stepped s w s.ix, iy := stepped s w s.iy, psw := t.psw } := by
  refine ⟨subFlags_cmp w s.psw _ _, ?_⟩
  rw [cmpbkElement, stepIndex_eq_stepped, stepIndex_eq_stepped]

/-- One element of CMPM: the flags of the accumulator minus the element at DS1:IY, and IY steps (R148). -/
theorem cmpmElement_spec (s : State) (w : Width) :
    let t := cmpmElement w s
    AluResult .cmp (s.reg w .aw) (s.readMem w s.ds1 s.iy) (subResult (s.reg w .aw) (s.readMem w s.ds1 s.iy) false)
        s.psw t.psw ∧
      t = { s with iy := stepped s w s.iy, psw := t.psw } := by
  refine ⟨subFlags_cmp w s.psw _ _, ?_⟩
  rw [cmpmElement, stepIndex_eq_stepped]

/-- Settles O32: without a repeat prefix the instruction is its one element. -/
theorem oneBlockElementCompletes : Obligations.OneBlockElementCompletes := by
  intro s w hrep
  refine ⟨⟨_, ?_, movbkElement_spec s w⟩, ⟨_, _, ?_, cmpbkElement_spec s w⟩, ⟨_, _, ?_, cmpmElement_spec s w⟩,
    ⟨_, ?_, ldmElement_spec s w⟩, ⟨_, ?_, stmElement_spec s w⟩⟩
  · rw [exec_movbk_eq, runBlock_of_no_repeat hrep]
  · rw [exec_cmpbk_eq, runBlock_of_no_repeat hrep]
  · rw [exec_cmpm_eq, runBlock_of_no_repeat hrep]
  · rw [exec_ldm_eq, runBlock_of_no_repeat hrep]
  · rw [exec_stm_eq, runBlock_of_no_repeat hrep]

/-! ### The loop of a repeat prefix (R145) -/

theorem Rep.goesOn_iff (r : Rep) (f : Psw) : r.goesOn f = true ↔ RepeatTest r f := by
  cases r <;> simp [goesOn]

section Repeated

variable {s : State} {r : Rep} {compares : Bool} (hrep : s.prefixes.repeated = some r)
include hrep

/-- REPC and REPNC are refused before an instruction that compares nothing (U3). -/
theorem runBlock_of_undefined_test (h : (r = .repc ∨ r = .repnc) ∧ compares = false) (i : Instr) (e : State → State) :
    runBlock i compares e s = .refused .repeatCondition := by
  obtain ⟨rfl | rfl, rfl⟩ := h <;> simp [runBlock, hrep]

variable (htest : ¬ ((r = .repc ∨ r = .repnc) ∧ compares = false))
include htest

/-- With CW = 0 a repeat prefix runs no element (R145). -/
theorem runBlock_of_count_zero (h : s.cw = 0) (i : Instr) (e : State → State) :
    runBlock i compares e s = .next s := by
  have hdefined : ¬ ((r == .repc || r == .repnc) && !compares) = true := by simpa using htest
  simp only [runBlock, hrep, if_neg hdefined, if_pos h]

/-- With CW not 0 a repeat prefix runs one element, counts it, and keeps the instruction in progress while the count and
the test of a compare say so (R145). -/
theorem runBlock_of_count (h : s.cw ≠ 0) (i : Instr) (e : State → State) :
    runBlock i compares e s =
      .next { e s with
        cw := (e s).cw - 1
        inProgress :=
          if (e s).cw - 1 ≠ 0 ∧ (compares = true → r.goesOn (e s).psw = true) then some i else (e s).inProgress } := by
  have hdefined : ¬ ((r == .repc || r == .repnc) && !compares) = true := by simpa using htest
  have hgo : ((e s).cw - 1 != 0 && (!compares || r.goesOn (e s).psw)) = true ↔
      (e s).cw - 1 ≠ 0 ∧ (compares = true → r.goesOn (e s).psw = true) := by
    cases compares <;> simp
  simp only [runBlock, hrep, if_neg hdefined, if_neg h, hgo]
  split <;> rfl

end Repeated

/-- The state with another repeat prefix, or with none. -/
abbrev State.withRepeat (s : State) (q : Option Rep) : State :=
  { s with prefixes := { s.prefixes with repeated := q } }

/-- What the elements of all block instructions have in common: they keep CW and the instruction in progress, and
neither look at the repeat prefix nor change it. -/
structure RepeatableElement (e : State → State) : Prop where
  cw : ∀ s, (e s).cw = s.cw
  inProgress : ∀ s, (e s).inProgress = s.inProgress
  withRepeat : ∀ s q, e (s.withRepeat q) = { e s with prefixes := { s.prefixes with repeated := q } }

/-- An element keeps the prefixes. -/
theorem RepeatableElement.prefixes {e : State → State} (h : RepeatableElement e) (s : State) :
    (e s).prefixes = s.prefixes := by
  have hs : e s = { e s with prefixes := s.prefixes } := h.withRepeat s s.prefixes.repeated
  rw [hs]

/-- What is quiet keeps the instruction in progress. -/
theorem Quiet.inProgress_eq {s t : State} (h : Quiet s t) : t.inProgress = s.inProgress :=
  congrArg Kept.inProgress h.1

theorem movbkElement_repeatable (w : Width) : RepeatableElement (movbkElement w) where
  cw s := State.writeMem_cw s w _ _ _
  inProgress s := (movbkElement_quiet w s).inProgress_eq
  withRepeat s q := by cases w <;> rfl

theorem cmpbkElement_repeatable (w : Width) : RepeatableElement (cmpbkElement w) where
  cw _ := rfl
  inProgress s := (cmpbkElement_quiet w s).inProgress_eq
  withRepeat s q := by cases w <;> rfl

theorem cmpmElement_repeatable (w : Width) : RepeatableElement (cmpmElement w) where
  cw _ := rfl
  inProgress s := (cmpmElement_quiet w s).inProgress_eq
  withRepeat s q := by cases w <;> rfl

theorem ldmElement_repeatable (w : Width) : RepeatableElement (ldmElement w) where
  cw s := by cases w <;> rfl
  inProgress s := (ldmElement_quiet w s).inProgress_eq
  withRepeat s q := by cases w <;> rfl

theorem stmElement_repeatable (w : Width) : RepeatableElement (stmElement w) where
  cw s := State.writeMem_cw s w _ _ _
  inProgress s := (stmElement_quiet w s).inProgress_eq
  withRepeat s q := by cases w <;> rfl

theorem inmElement_repeatable (w : Width) : RepeatableElement (inmElement w) where
  cw s := by
    obtain ⟨-, -, -, hframe⟩ := inmElement_spec s w
    rw [hframe]
  inProgress s := (inmElement_quiet w s).inProgress_eq
  withRepeat s q := by
    unfold inmElement State.ioRead
    cases s.ioIn <;> cases w <;> rfl

theorem outmElement_repeatable (w : Width) : RepeatableElement (outmElement w) where
  cw _ := rfl
  inProgress s := (outmElement_quiet w s).inProgress_eq
  withRepeat s q := by cases w <;> rfl

/-- Every block instruction is the loop around an element of its own (R140, R145). -/
theorem BlockForm.exec_eq {i : Instr} {compares : Bool} (h : BlockForm i compares) :
    ∃ e, RepeatableElement e ∧ ∀ s, exec i s = runBlock i compares e s := by
  cases h with
  | movbk w => exact ⟨_, movbkElement_repeatable w, fun s => exec_movbk_eq s w⟩
  | cmpbk w => exact ⟨_, cmpbkElement_repeatable w, fun s => exec_cmpbk_eq s w⟩
  | cmpm w => exact ⟨_, cmpmElement_repeatable w, fun s => exec_cmpm_eq s w⟩
  | ldm w => exact ⟨_, ldmElement_repeatable w, fun s => exec_ldm_eq s w⟩
  | stm w => exact ⟨_, stmElement_repeatable w, fun s => exec_stm_eq s w⟩
  | inm w => exact ⟨_, inmElement_repeatable w, fun s => exec_inm_eq s w⟩
  | outm w => exact ⟨_, outmElement_repeatable w, fun s => exec_outm_eq s w⟩

/-- Settles O34: the loop is said of any element, and the element of each block instruction is the same with the prefix
and without it. -/
theorem repeatRunsElementsWhileCountLasts : Obligations.RepeatRunsElementsWhileCountLasts := by
  intro s i compares r hform hrep hprogress
  obtain ⟨e, he, hexec⟩ := hform.exec_eq
  refine ⟨fun hundef => ?_, fun htest => ⟨fun h0 => ?_, fun h0 => ?_⟩⟩
  · rw [hexec, runBlock_of_undefined_test hrep hundef]
  · rw [hexec, runBlock_of_count_zero hrep htest h0]
  · have halone := hexec (s.withRepeat none)
    rw [runBlock_of_no_repeat rfl, he.withRepeat] at halone
    have hrepeated := hexec s
    rw [runBlock_of_count hrep htest h0, he.cw, he.inProgress, hprogress] at hrepeated
    refine ⟨_, _, halone, hrepeated, ?_, ?_, ?_⟩
    · rw [← he.prefixes]
    · simp [Rep.goesOn_iff]
    · split
      · exact .inl rfl
      · exact .inr rfl

/-! ### Between two steps of an instruction in progress -/

/-- An instruction in progress is taken up without a fetch (R145, R364). -/
theorem State.select_of_inProgress {s : State} {j : Instr} (h : s.inProgress = some j) :
    s.select = .ok (j, { s with inProgress := none }) := by
  simp only [select, h]

/-- The step of a machine that is not halted is the instruction it selects, and what follows it. -/
theorem step_of_select {s u : State} {i : Instr} (hh : s.halted = false) (hs : s.select = .ok (i, u)) :
    step s =
      match exec i u with
      | .next t => .next (t.finish i s.psw.brk)
      | .fault r => .fault r
      | .refused r => .refused r := by
  simp only [step, hh, hs, Bool.false_eq_true, if_false] <;> rfl

/-- A pause with the window open, or with no request accepted, changes nothing (R411, R412). -/
theorem State.pause_of_idle {s : State} (h : s.window = true ∨ s.requestDue = false) : s.pause = s := by
  obtain ⟨-, hp⟩ | ⟨hw, -, hr, -⟩ := pause_cases s
  · exact hp
  · obtain h | h := h
    · exact absurd (h.symm.trans hw) (by decide)
    · exact absurd (h.symm.trans hr) (by decide)

/-- A pause with a request accepted drops the instruction and serves the request with the offset of the instruction's
first byte (R145, R404). -/
theorem State.pause_of_request {s : State} (hw : s.window = false) (he : s.emulating = false)
    (hr : s.requestDue = true) :
    s.pause = ({ s with inProgress := none, prefixes := Prefixes.none } : State).acceptRequests s.start := by
  simp [pause, hw, he, hr]

/-- An NMI request is accepted and consumed: it enters `nmi_vector` (R401, R411). -/
theorem State.acceptRequests_nmi_enters {s : State} (h : s.nmi = true) (saved : Word) :
    Enters s.nmiVector saved { s with nmi := false, halted := false } (s.acceptRequests saved) := by
  rw [acceptRequests, if_pos h]
  exact breakSeq_enters _ _ _

/-- Without an NMI request, an enabled maskable request is accepted and consumed: it enters the vector it carries
(R411). -/
theorem State.acceptRequests_int_enters {s : State} {n : Byte} (hn : s.nmi = false) (hi : s.int = some n)
    (he : s.psw.ie = true) (saved : Word) :
    Enters n saved { s with int := none, halted := false } (s.acceptRequests saved) := by
  simp only [acceptRequests, hn, hi, he, Bool.false_eq_true, if_false, if_true]
  exact breakSeq_enters _ _ _

/-- Settles O55: the step takes up the instruction in progress, and what follows it there is a pause, whatever BRK is. -/
theorem instructionInProgressGoesOnOrIsInterrupted : Obligations.InstructionInProgressGoesOnOrIsInterrupted := by
  intro s i j armed hprogress
  refine ⟨fun hh => step_of_select hh (State.select_of_inProgress hprogress), fun hi hw => ?_,
    fun hi hw he => ⟨fun hn => ?_, fun hn n hreq hie => ?_, fun hn hidle => ?_⟩⟩ <;>
    rw [finish_pause hi hprogress]
  · exact State.pause_of_idle (.inl hw)
  · have hdue : s.requestDue = true := by simp [State.requestDue, hn]
    rw [State.pause_of_request hw he hdue]
    exact State.acceptRequests_nmi_enters (s := { s with inProgress := none, prefixes := Prefixes.none }) hn s.start
  · have hdue : s.requestDue = true := by simp [State.requestDue, hreq, hie]
    rw [State.pause_of_request hw he hdue]
    exact State.acceptRequests_int_enters (s := { s with inProgress := none, prefixes := Prefixes.none }) hn hreq hie
      s.start
  · have hdue : s.requestDue = false := by
      obtain h | h := hidle <;> simp [State.requestDue, hn, h]
    exact State.pause_of_idle (.inr hdue)

end Sys2Proof.Machine
end

section
/-! PROOFS. The bit-field instructions EXT and INS (42_bitfield_io.md): O35 and O36. -/

namespace Sys2Proof.Machine

/-! ### Bits of strings, masks and bytes -/

/-- The mask of a field has exactly the field's bits (R160 (a)). -/
theorem getLsbD_fieldMask {b l k : Nat} (hk : k < 32) :
    (fieldMask b l).getLsbD k = decide (b ≤ k ∧ k ≤ b + l) := by
  rw [fieldMask, BitVec.getLsbD_shiftLeft, BitVec.getLsbD_ofNat, Nat.testBit_two_pow_sub_one,
    decide_eq_true hk, decide_eq_true (show k - b < 32 by omega), Bool.true_and, Bool.true_and, ← decide_not,
    ← Bool.decide_and, decide_eq_decide]
  omega

/-- Bit `i` of byte `k` of a string is bit `8 * k + i` of the string. -/
theorem getLsbD_stringByte (m : BitVec 32) (k i : Nat) :
    (stringByte m k).getLsbD i = (decide (i < 8) && m.getLsbD (8 * k + i)) := by
  rw [stringByte, BitVec.getLsbD_extractLsb']

/-- A bit of a string is a bit of the byte that holds it. -/
theorem getLsbD_stringByte_div (m : BitVec 32) (k : Nat) : (stringByte m (k / 8)).getLsbD (k % 8) = m.getLsbD k := by
  rw [getLsbD_stringByte, Nat.div_add_mod, decide_eq_true (Nat.mod_lt k (by decide)), Bool.true_and]

/-- A byte that is not 0 holds a bit that is 1. -/
theorem exists_getLsbD_of_stringByte_ne {m : BitVec 32} {j : Nat} (h : stringByte m j ≠ 0) :
    ∃ k, k / 8 = j ∧ m.getLsbD k = true := by
  refine Classical.byContradiction fun hall => h (BitVec.eq_of_getLsbD_eq fun i hi => ?_)
  have hbit : ¬ m.getLsbD (8 * j + i) = true := fun hm => hall ⟨_, by omega, hm⟩
  rw [getLsbD_stringByte, eq_false_of_ne_true hbit, Bool.and_false]
  exact BitVec.getLsbD_zero.symm

/-- Byte `n` of a string holds the bits from `8 * n` up to the next byte. -/
theorem getLsbD_byte_shiftLeft (v : Byte) {n j i : Nat} (hj : j < 4) (hi : i < 8) :
    (v.setWidth 32 <<< (8 * n)).getLsbD (8 * j + i) = (decide (j = n) && v.getLsbD i) := by
  rw [BitVec.getLsbD_shiftLeft, BitVec.getLsbD_setWidth, decide_eq_true (show 8 * j + i < 32 by omega), Bool.true_and,
    decide_eq_true (show 8 * j + i - 8 * n < 32 by omega), Bool.true_and]
  obtain hlt | rfl | hgt := Nat.lt_trichotomy j n
  · simp [show 8 * j + i < 8 * n by omega, Nat.ne_of_lt hlt]
  · simp
  · rw [BitVec.getLsbD_of_ge v _ (by omega), Bool.and_false, decide_eq_false (by omega), Bool.false_and]

/-- A bit of the bit string of four bytes is the bit the spec names (R160 (b)). -/
theorem getLsbD_bitString (s : State) (seg base : Word) {k : Nat} (hk : k < 32) :
    (s.bitString seg base).getLsbD k = stringBit s seg base k := by
  obtain ⟨j, i, hi, hj, rfl⟩ : ∃ j i, i < 8 ∧ j < 4 ∧ k = 8 * j + i :=
    ⟨k / 8, k % 8, Nat.mod_lt _ (by decide), by omega, (Nat.div_add_mod k 8).symm⟩
  have hstring : s.bitString seg base =
      (s.readByte seg base).setWidth 32 <<< (8 * 0) ||| (s.readByte seg (base + 1)).setWidth 32 <<< (8 * 1) |||
        (s.readByte seg (base + 2)).setWidth 32 <<< (8 * 2) |||
          (s.readByte seg (base + 3)).setWidth 32 <<< (8 * 3) := by
    rw [Nat.mul_zero, BitVec.shiftLeft_zero]
    rfl
  have hbit : stringBit s seg base (8 * j + i) = (s.readByte seg (base + BitVec.ofNat 16 j)).getLsbD i := by
    rw [stringBit, show (8 * j + i) / 8 = j by omega, show (8 * j + i) % 8 = i by omega]
  rw [hbit, hstring]
  simp only [BitVec.getLsbD_or, getLsbD_byte_shiftLeft _ hj hi]
  obtain rfl | rfl | rfl | rfl : j = 0 ∨ j = 1 ∨ j = 2 ∨ j = 3 := by omega
  all_goals simp

/-! ### The registers after EXT or INS -/

/-- Only status flags and the count of undefined values may differ: what leaving flags undefined does (R30). -/
abbrev StatusDrawn (s t : State) : Prop :=
  ∃ f n, t = { s with psw := f, draws := n } ∧ SameControlFlags s.psw f

theorem StatusDrawn.trans {s t u : State} (hu : StatusDrawn s u) (ht : StatusDrawn u t) : StatusDrawn s t := by
  obtain ⟨f, n, rfl, hmd, hdir, hie, hbrk⟩ := hu
  obtain ⟨g, m, rfl, hmd', hdir', hie', hbrk'⟩ := ht
  exact ⟨g, m, rfl, hmd'.trans hmd, hdir'.trans hdir, hie'.trans hie, hbrk'.trans hbrk⟩

theorem undefAC_statusDrawn (s : State) : StatusDrawn s s.undefAC := ⟨_, _, rfl, rfl, rfl, rfl, rfl⟩
theorem undefCY_statusDrawn (s : State) : StatusDrawn s s.undefCY := ⟨_, _, rfl, rfl, rfl, rfl, rfl⟩
theorem undefV_statusDrawn (s : State) : StatusDrawn s s.undefV := ⟨_, _, rfl, rfl, rfl, rfl, rfl⟩
theorem undefP_statusDrawn (s : State) : StatusDrawn s s.undefP := ⟨_, _, rfl, rfl, rfl, rfl, rfl⟩
theorem undefS_statusDrawn (s : State) : StatusDrawn s s.undefS := ⟨_, _, rfl, rfl, rfl, rfl, rfl⟩
theorem undefZ_statusDrawn (s : State) : StatusDrawn s s.undefZ := ⟨_, _, rfl, rfl, rfl, rfl, rfl⟩

/-- All six status flags left undefined: the control flags and everything else stay (R30). -/
theorem undefStatus_statusDrawn (s : State) : StatusDrawn s s.undefStatus :=
  (undefAC_statusDrawn s).trans <| (undefCY_statusDrawn _).trans <| (undefV_statusDrawn _).trans <|
    (undefP_statusDrawn _).trans <| (undefS_statusDrawn _).trans (undefZ_statusDrawn _)

theorem reg8_undefStatus (s : State) (q : Reg) : s.undefStatus.reg8 q = s.reg8 q := by
  cases q <;> simp only [State.reg8, State.undefStatus_aw, State.undefStatus_bw, State.undefStatus_cw,
    State.undefStatus_dw]
theorem reg8_withIx (s : State) (x : Word) (q : Reg) : ({ s with ix := x } : State).reg8 q = s.reg8 q := by
  cases q <;> rfl
theorem reg8_withIy (s : State) (y : Word) (q : Reg) : ({ s with iy := y } : State).reg8 q = s.reg8 q := by
  cases q <;> rfl

/-- A write to a half register reaches the four word registers that have halves alone (R8). -/
theorem setReg8_frame (s : State) (r : Reg) (v : Byte) :
    s.setReg8 r v =
      { s with
        aw := (s.setReg8 r v).aw, bw := (s.setReg8 r v).bw, cw := (s.setReg8 r v).cw, dw := (s.setReg8 r v).dw } := by
  cases r <;> rfl

/-- A write to a half register leaves the bits of AW outside that half (R8). -/
theorem getLsbD_aw_setReg8 (s : State) {r : Reg} (v : Byte) {k : Nat} (hk : k < 16) (hal : ¬ (r = .aw ∧ k < 8))
    (hah : ¬ (r = .sp ∧ 8 ≤ k)) : (s.setReg8 r v).aw.getLsbD k = s.aw.getLsbD k := by
  by_cases hlow : k < 8
  · have hhalf : lowByte (s.setReg8 r v).aw = lowByte s.aw :=
      reg_setReg_ne s .byte (q := .aw) v fun e => hal ⟨e.symm, hlow⟩
    have hbit (v : Word) : (lowByte v).getLsbD k = v.getLsbD k := by
      rw [lowByte, BitVec.getLsbD_extractLsb', decide_eq_true hlow, Bool.true_and, Nat.zero_add]
    rw [← hbit, hhalf, hbit]
  · have hhalf : highByte (s.setReg8 r v).aw = highByte s.aw :=
      reg_setReg_ne s .byte (q := .sp) v fun e => hah ⟨e.symm, by omega⟩
    have hbit (v : Word) : (highByte v).getLsbD (k - 8) = v.getLsbD k := by
      rw [getLsbD_highByte, decide_eq_true (by omega), Bool.true_and, Nat.add_sub_cancel' (by omega)]
    rw [← hbit, hhalf, hbit]

/-- The model's next bit offset and index register are the spec's (R160 (c)). -/
theorem nextField_of_eq {o : Reg} {b l : Nat} {t : State} {index index' : Word} (hb : b ≤ 15) (hl : l ≤ 15)
    (hoffset : t.reg8 o = nextBitOffset b l) (hindex : index' = nextBitIndex b l index) :
    NextField o b l t index index' := by
  have hnat : (t.reg8 o).toNat = (b + l + 1) % 16 := by
    rw [hoffset, nextBitOffset, BitVec.toNat_ofNat]
    omega
  unfold NextField
  rw [hnat, hindex, nextBitIndex]
  split
  · exact ⟨by omega, if_neg (by omega)⟩
  · exact ⟨by omega, if_pos (by omega)⟩

/-! ### EXT -/

/-- Every form of EXT is the one extraction. -/
theorem ExtForm.exec_eq {s : State} {i : Instr} {o : Reg} {l : Nat} (h : ExtForm s i o l) :
    exec i s = extField o l s := by
  cases h <;> rfl

/-- The field EXT loads (R161). -/
def extractedField (o : Reg) (l : Nat) (s : State) : Word :=
  ((s.bitString s.srcSeg s.ix &&& fieldMask (s.reg8 o).toNat l) >>> (s.reg8 o).toNat).setWidth 16

/-- The machine after EXT (R161). -/
def afterExt (o : Reg) (l : Nat) (s : State) : State :=
  ({ ({ s with aw := extractedField o l s } : State).setReg8 o (nextBitOffset (s.reg8 o).toNat l) with
    ix := nextBitIndex (s.reg8 o).toNat l s.ix } : State).undefStatus

theorem extField_eq (o : Reg) (l : Nat) (s : State) :
    extField o l s =
      if 15 < (s.reg8 o).toNat ∨ 15 < l then .refused .bitFieldRange else .next (afterExt o l s) := rfl

/-- The field is zero-extended (R161). -/
theorem getLsbD_extractedField {o : Reg} {l : Nat} {s : State} {k : Nat} (hb : (s.reg8 o).toNat ≤ 15) (hk : k < 16) :
    (extractedField o l s).getLsbD k = (decide (k ≤ l) && stringBit s s.srcSeg s.ix ((s.reg8 o).toNat + k)) := by
  have hin : (s.reg8 o).toNat + k < 32 := by omega
  simp only [extractedField, BitVec.getLsbD_setWidth, BitVec.getLsbD_ushiftRight, BitVec.getLsbD_and,
    getLsbD_bitString s _ _ hin, getLsbD_fieldMask hin]
  simp [hk, Bool.and_comm]

theorem reg8_afterExt_offset (o : Reg) (l : Nat) (s : State) :
    (afterExt o l s).reg8 o = nextBitOffset (s.reg8 o).toNat l := by
  rw [afterExt, reg8_undefStatus, reg8_withIx]
  exact reg_setReg _ .byte o _

/-- EXT keeps every half register but the offset and the halves of AW. -/
theorem reg8_afterExt_ne {o q : Reg} (l : Nat) (s : State) (ho : q ≠ o) (hal : q ≠ .aw) (hah : q ≠ .sp) :
    (afterExt o l s).reg8 q = s.reg8 q := by
  have hothers : ({ s with aw := extractedField o l s } : State).reg8 q = s.reg8 q := by
    cases q with
    | aw => exact absurd rfl hal
    | sp => exact absurd rfl hah
    | _ => rfl
  rw [afterExt, reg8_undefStatus, reg8_withIx, ← hothers]
  exact reg_setReg_ne _ .byte _ ho

/-- EXT writes the registers named, PSW and the count of undefined values, and of PSW only status flags. -/
theorem afterExt_frame (o : Reg) (l : Nat) (s : State) :
    let t := afterExt o l s
    SameControlFlags s.psw t.psw ∧
      t = { s with aw := t.aw, bw := t.bw, cw := t.cw, dw := t.dw, ix := t.ix, psw := t.psw, draws := t.draws } := by
  intro t
  obtain ⟨f, n, ht, hflags⟩ : StatusDrawn _ t := undefStatus_statusDrawn _
  rw [setReg8_frame] at ht hflags
  rw [ht]
  exact ⟨hflags, rfl⟩

/-- Settles O35: EXT is one load of AW, one write of the offset register and one step of IX. -/
theorem extractLoadsTheField : Obligations.ExtractLoadsTheField := by
  intro s i o l hform b
  rw [hform.exec_eq, extField_eq]
  obtain ⟨hflags, hframe⟩ := afterExt_frame o l s
  refine ⟨fun hb hl => ⟨afterExt o l s, if_neg (by omega), ?_, hflags, fun k hk hal hah => ?_,
    fun q => reg8_afterExt_ne l s, hframe⟩, fun h => if_pos h⟩
  · exact nextField_of_eq hb hl (reg8_afterExt_offset o l s) (State.undefStatus_ix _)
  · rw [← getLsbD_extractedField hb hk, afterExt, State.undefStatus_aw]
    exact getLsbD_aw_setReg8 _ _ hk hal hah

/-! ### The stores of INS -/

/-- One store of INS: the byte of the string is written if it holds bits of the field (R163). -/
def State.writeFieldByte (seg base : Word) (mask value : BitVec 32) (t : State) (k : Nat) : State :=
  if stringByte mask k = 0 then t else t.writeByte seg (base + BitVec.ofNat 16 k) (stringByte value k)

theorem State.writeField_eq (s : State) (seg base : Word) (mask value : BitVec 32) :
    s.writeField seg base mask value = [0, 1, 2, 3].foldl (State.writeFieldByte seg base mask value) s := rfl

section Stores

variable {seg base : Word} {mask value : BitVec 32}

variable (seg base mask value) in
/-- One store reaches memory and the record of stores alone. -/
theorem State.writeFieldByte_exists (t : State) (k : Nat) :
    ∃ m r, t.writeFieldByte seg base mask value k = { t with mem := m, stores := r } := by
  unfold State.writeFieldByte
  split
  · exact ⟨_, _, rfl⟩
  · exact ⟨_, _, rfl⟩

variable (seg base mask value) in
/-- A store does not move the addresses of the stores that follow. -/
theorem State.addr_writeFieldByte (t : State) (k : Nat) (g o : Word) :
    (t.writeFieldByte seg base mask value k).addr g o = t.addr g o := by
  obtain ⟨m, r, h⟩ := t.writeFieldByte_exists seg base mask value k
  rw [h]
  rfl

theorem State.normalAddresses_writeFieldByte {t : State} (h : t.NormalAddresses) (k : Nat) :
    (t.writeFieldByte seg base mask value k).NormalAddresses := by
  obtain ⟨m, r, ht⟩ := t.writeFieldByte_exists seg base mask value k
  rw [ht]
  exact h

/-- The stores reach memory and the record of stores alone. -/
theorem State.foldl_writeFieldByte_exists (ks : List Nat) (s : State) :
    ∃ m r, ks.foldl (State.writeFieldByte seg base mask value) s = { s with mem := m, stores := r } := by
  induction ks generalizing s with
  | nil => exact ⟨_, _, rfl⟩
  | cons k ks ih =>
    obtain ⟨m, r, hk⟩ := s.writeFieldByte_exists seg base mask value k
    obtain ⟨m', r', hks⟩ := ih (s.writeFieldByte seg base mask value k)
    exact ⟨m', r', by rw [List.foldl_cons, hks, hk]⟩

/-- An address of no byte that holds field bits reads as before. -/
theorem State.read_foldl_writeFieldByte_other {a : Nat} (ks : List Nat) (s : State)
    (h : ∀ k ∈ ks, stringByte mask k ≠ 0 → a ≠ s.addr seg (base + BitVec.ofNat 16 k)) :
    (ks.foldl (State.writeFieldByte seg base mask value) s).mem.read a = s.mem.read a := by
  induction ks generalizing s with
  | nil => rfl
  | cons k ks ih =>
    have hstep : (s.writeFieldByte seg base mask value k).mem.read a = s.mem.read a := by
      unfold State.writeFieldByte
      split
      · rfl
      · next hk => exact Memory.read_write_other _ _ _ _ (h k List.mem_cons_self hk)
    rw [List.foldl_cons, ih, hstep]
    intro j hj hne
    rw [State.addr_writeFieldByte]
    exact h j (List.mem_cons_of_mem _ hj) hne

/-- In the normal address mode different bytes of a string are at different addresses. -/
theorem State.addr_stringByte_ne {s : State} (h : s.NormalAddresses) {j k : Nat} (hj : j < 4) (hk : k < 4)
    (hne : j ≠ k) : s.addr seg (base + BitVec.ofNat 16 j) ≠ s.addr seg (base + BitVec.ofNat 16 k) := by
  refine State.addr_ne h seg fun e => hne ?_
  have hoff : BitVec.ofNat 16 j = BitVec.ofNat 16 k := (BitVec.add_right_inj base).mp e
  have hnat := congrArg BitVec.toNat hoff
  simp only [BitVec.toNat_ofNat] at hnat
  omega

/-- A byte that holds field bits reads as the value's: later stores are at other addresses. -/
theorem State.read_foldl_writeFieldByte_same {k : Nat} (ks : List Nat) {s : State} (hn : s.NormalAddresses)
    (hks : ∀ j ∈ ks, j < 4) (hk : k ∈ ks) (hmask : stringByte mask k ≠ 0) :
    (ks.foldl (State.writeFieldByte seg base mask value) s).mem.read (s.addr seg (base + BitVec.ofNat 16 k)) =
      stringByte value k := by
  induction ks generalizing s with
  | nil => exact absurd hk List.not_mem_nil
  | cons j ks ih =>
    have hlater : ∀ i ∈ ks, i < 4 := fun i hi => hks i (List.mem_cons_of_mem _ hi)
    rw [List.foldl_cons, ← State.addr_writeFieldByte seg base mask value s j]
    by_cases hagain : k ∈ ks
    · exact ih (State.normalAddresses_writeFieldByte hn j) hlater hagain
    · obtain rfl : k = j := (List.mem_cons.mp hk).resolve_right hagain
      rw [State.read_foldl_writeFieldByte_other]
      · rw [State.addr_writeFieldByte, State.writeFieldByte, if_neg hmask]
        exact Memory.read_write_same _ _ _
      · intro i hi _
        exact State.addr_stringByte_ne (State.normalAddresses_writeFieldByte hn k) (hks k hk) (hlater i hi)
          fun e => hagain (e ▸ hi)

variable (seg base mask value) in
/-- `writeField` reaches memory and the record of stores alone. -/
theorem State.writeField_exists (s : State) :
    ∃ m r, s.writeField seg base mask value = { s with mem := m, stores := r } :=
  State.foldl_writeFieldByte_exists _ s

/-- `writeField` leaves every address but those of the bytes that hold field bits (R163). -/
theorem State.read_writeField_other {s : State} {a : Nat}
    (h : ∀ k, k < 32 → mask.getLsbD k = true → a ≠ s.addr seg (base + BitVec.ofNat 16 (k / 8))) :
    (s.writeField seg base mask value).mem.read a = s.mem.read a := by
  refine State.read_foldl_writeFieldByte_other _ s fun j _ hmask => ?_
  obtain ⟨k, rfl, hk⟩ := exists_getLsbD_of_stringByte_ne hmask
  exact h k (BitVec.lt_of_getLsbD hk) hk

/-- After `writeField` a byte of the string is the value's if it holds field bits, else it is as before (R163). -/
theorem State.readByte_writeField {s : State} (hn : s.NormalAddresses) {j : Nat} (hj : j < 4) :
    (s.writeField seg base mask value).readByte seg (base + BitVec.ofNat 16 j) =
      if stringByte mask j = 0 then s.readByte seg (base + BitVec.ofNat 16 j) else stringByte value j := by
  have hbounded : ∀ i ∈ [0, 1, 2, 3], i < 4 := by decide
  have haddr : (s.writeField seg base mask value).addr seg (base + BitVec.ofNat 16 j) =
      s.addr seg (base + BitVec.ofNat 16 j) := by
    obtain ⟨m, r, h⟩ := s.writeField_exists seg base mask value
    rw [h]
    rfl
  rw [State.readByte, haddr, State.writeField_eq]
  split
  · next hzero =>
    refine State.read_foldl_writeFieldByte_other _ s fun i hi hmask => ?_
    exact State.addr_stringByte_ne hn hj (hbounded i hi) fun e => hmask (e ▸ hzero)
  · next hmask =>
    have hmem : j ∈ [0, 1, 2, 3] := by simp; omega
    exact State.read_foldl_writeFieldByte_same _ hn hbounded hmem hmask

/-- After `writeField` a bit of the string is the value's, where the value keeps the bits outside the field (R163). -/
theorem State.stringBit_writeField {s : State} (hn : s.NormalAddresses) {k : Nat} (hk : k < 32)
    (hkeep : mask.getLsbD k = false → value.getLsbD k = stringBit s seg base k) :
    stringBit (s.writeField seg base mask value) seg base k = value.getLsbD k := by
  rw [stringBit, State.readByte_writeField hn (by omega)]
  split
  · next hzero =>
    refine (hkeep ?_).symm
    rw [← getLsbD_stringByte_div, hzero]
    exact BitVec.getLsbD_zero
  · exact getLsbD_stringByte_div value k

end Stores

/-! ### INS -/

/-- Every form of INS is the one insertion. -/
theorem InsForm.exec_eq {s : State} {i : Instr} {o : Reg} {l : Nat} (h : InsForm s i o l) :
    exec i s = insField o l s := by
  cases h <;> rfl

/-- The four bytes after INS as one string: the field's bits from AW, the others as they are (R163). -/
def insertedString (o : Reg) (l : Nat) (s : State) : BitVec 32 :=
  s.bitString s.ds1 s.iy &&& ~~~fieldMask (s.reg8 o).toNat l |||
    s.aw.setWidth 32 <<< (s.reg8 o).toNat &&& fieldMask (s.reg8 o).toNat l

/-- The machine after the stores of INS (R163). -/
def insertStored (o : Reg) (l : Nat) (s : State) : State :=
  s.writeField s.ds1 s.iy (fieldMask (s.reg8 o).toNat l) (insertedString o l s)

/-- The machine after INS (R163). -/
def afterIns (o : Reg) (l : Nat) (s : State) : State :=
  ({ (insertStored o l s).setReg8 o (nextBitOffset (s.reg8 o).toNat l) with
    iy := nextBitIndex (s.reg8 o).toNat l s.iy } : State).undefStatus

theorem insField_eq (o : Reg) (l : Nat) (s : State) :
    insField o l s =
      if 15 < (s.reg8 o).toNat ∨ 15 < l then .refused .bitFieldRange else .next (afterIns o l s) := rfl

theorem getLsbD_insertedString {o : Reg} {l : Nat} {s : State} {k : Nat} (hl : l ≤ 15) (hk : k < 32) :
    (insertedString o l s).getLsbD k =
      if (s.reg8 o).toNat ≤ k ∧ k ≤ (s.reg8 o).toNat + l then s.aw.getLsbD (k - (s.reg8 o).toNat)
      else stringBit s s.ds1 s.iy k := by
  simp only [insertedString, BitVec.getLsbD_or, BitVec.getLsbD_and, BitVec.getLsbD_not, BitVec.getLsbD_shiftLeft,
    BitVec.getLsbD_setWidth, getLsbD_bitString s _ _ hk, getLsbD_fieldMask hk, decide_eq_true hk]
  split
  · next hin => simp [hin, show k - (s.reg8 o).toNat < 32 by omega]
  · next hout => simp [hout]

/-- The bits of the string after the stores of INS (R163). -/
theorem stringBit_insertStored {o : Reg} {l : Nat} {s : State} (hn : s.NormalAddresses) {k : Nat} (hl : l ≤ 15)
    (hk : k < 32) :
    stringBit (insertStored o l s) s.ds1 s.iy k =
      if (s.reg8 o).toNat ≤ k ∧ k ≤ (s.reg8 o).toNat + l then s.aw.getLsbD (k - (s.reg8 o).toNat)
      else stringBit s s.ds1 s.iy k := by
  rw [← getLsbD_insertedString hl hk]
  refine State.stringBit_writeField hn hk fun hmask => ?_
  rw [getLsbD_fieldMask hk] at hmask
  rw [getLsbD_insertedString hl hk, if_neg (of_decide_eq_false hmask)]

/-- The bytes that hold no bit of the field read as before (R163). -/
theorem read_insertStored_other {o : Reg} {l : Nat} {s : State} {a : Nat}
    (h : ∀ k, (s.reg8 o).toNat ≤ k → k ≤ (s.reg8 o).toNat + l →
      a ≠ s.addr s.ds1 (s.iy + BitVec.ofNat 16 (k / 8))) :
    (insertStored o l s).mem.read a = s.mem.read a := by
  refine State.read_writeField_other fun k hk hmask => ?_
  rw [getLsbD_fieldMask hk] at hmask
  obtain ⟨hfirst, hlast⟩ := of_decide_eq_true hmask
  exact h k hfirst hlast

theorem mem_afterIns (o : Reg) (l : Nat) (s : State) : (afterIns o l s).mem = (insertStored o l s).mem := by
  rw [afterIns, State.undefStatus_mem]
  exact State.setReg8_mem _ _ _

theorem reg8_afterIns_offset (o : Reg) (l : Nat) (s : State) :
    (afterIns o l s).reg8 o = nextBitOffset (s.reg8 o).toNat l := by
  rw [afterIns, reg8_undefStatus, reg8_withIy]
  exact reg_setReg _ .byte o _

/-- INS keeps every half register but the offset. -/
theorem reg8_afterIns_ne {o q : Reg} (l : Nat) (s : State) (h : q ≠ o) : (afterIns o l s).reg8 q = s.reg8 q := by
  have hstored : (insertStored o l s).reg8 q = s.reg8 q := by
    obtain ⟨m, r, hs⟩ : ∃ m r, insertStored o l s = { s with mem := m, stores := r } := s.writeField_exists _ _ _ _
    rw [hs]
    cases q <;> rfl
  rw [afterIns, reg8_undefStatus, reg8_withIy, ← hstored]
  exact reg_setReg_ne _ .byte _ h

/-- INS writes the registers named, PSW, the count of undefined values and memory, and of PSW only status flags. -/
theorem afterIns_frame (o : Reg) (l : Nat) (s : State) :
    let t := afterIns o l s
    SameControlFlags s.psw t.psw ∧
      t = { s with
        aw := t.aw, bw := t.bw, cw := t.cw, dw := t.dw, iy := t.iy, psw := t.psw, draws := t.draws
        mem := t.mem, stores := t.stores } := by
  intro t
  obtain ⟨f, n, ht, hflags⟩ : StatusDrawn _ t := undefStatus_statusDrawn _
  obtain ⟨m, r, hs⟩ : ∃ m r, insertStored o l s = { s with mem := m, stores := r } := s.writeField_exists _ _ _ _
  rw [setReg8_frame, hs] at ht hflags
  rw [ht]
  exact ⟨hflags, rfl⟩

/-- The bits of a string depend on the memory and the address mode alone. -/
theorem stringBit_congr {t u : State} (hc : t.cls = u.cls) (hx : t.xam = u.xam) (hm : t.mem = u.mem)
    (seg base : Word) (k : Nat) : stringBit t seg base k = stringBit u seg base k := by
  rw [stringBit, State.readByte_congr hc hx hm]

theorem stringBit_afterIns (o : Reg) (l : Nat) (s : State) (seg base : Word) (k : Nat) :
    stringBit (afterIns o l s) seg base k = stringBit (insertStored o l s) seg base k := by
  refine stringBit_congr ?_ ?_ (mem_afterIns o l s) seg base k
  · rw [afterIns, State.undefStatus_cls]
    exact State.setReg8_cls _ _ _
  · rw [afterIns, State.undefStatus_xam]
    exact State.setReg8_xam _ _ _

/-- Settles O36: INS is the stores of the bytes that hold field bits, one write of the offset register and one step of
IY. -/
theorem insertStoresTheField : Obligations.InsertStoresTheField := by
  intro s i o l hform hn b
  rw [hform.exec_eq, insField_eq]
  obtain ⟨hflags, hframe⟩ := afterIns_frame o l s
  refine ⟨fun hb hl => ⟨afterIns o l s, if_neg (by omega), ?_, hflags, fun k hk => ?_, fun a ha => ?_,
    fun q => reg8_afterIns_ne l s, hframe⟩, fun h => if_pos h⟩
  · exact nextField_of_eq hb hl (reg8_afterIns_offset o l s) (State.undefStatus_iy _)
  · rw [stringBit_afterIns, stringBit_insertStored hn hl hk]
  · rw [mem_afterIns, read_insertStored_other ha]

end Sys2Proof.Machine
end

section
/-! PROOFS. Addition, subtraction, comparison, the logical operations, counting and complements (43_arithmetic.md,
45_logic_bit_shift.md): O11 to O14. -/

namespace Sys2Proof.Machine

/-! ### The sum, its carry and its overflow -/

section Sum

variable {n : Nat} (hn : 0 < n)
include hn

/-- A sum is 2^n below the true one where there is a carry, else it is the true one. -/
theorem addResult_toNat (a b : BitVec n) (c : Bool) :
    (addResult a b c).toNat + (if 2 ^ n ≤ a.toNat + b.toNat + c.toNat then 2 ^ n else 0) =
      a.toNat + b.toNat + c.toNat := by
  have hc := c.toNat_le
  have hbit : (bit n c).toNat = c.toNat := by
    rw [bit, BitVec.toNat_setWidth, BitVec.toNat_ofBool, Nat.mod_eq_of_lt]
    exact Nat.lt_of_le_of_lt hc (Nat.one_lt_two_pow (Nat.pos_iff_ne_zero.mp hn))
  have ha := a.isLt
  have hb := b.isLt
  rw [addResult, BitVec.toNat_add, BitVec.toNat_add, hbit, Nat.mod_add_mod]
  split
  · next h =>
    rw [Nat.mod_eq_sub_mod h, Nat.mod_eq_of_lt (by omega)]
    omega
  · next h => rw [Nat.mod_eq_of_lt (by omega), Nat.add_zero]

/-- V of a sum: the operands have the same sign and the result has not, exactly if the true sum is no signed value of
the width (R23). -/
theorem addResult_overflow_iff (a b : BitVec n) (c : Bool) :
    (a.msb == b.msb && (addResult a b c).msb != a.msb) = true ↔ ¬ FitsSigned n (a.toInt + b.toInt + c.toNat) := by
  have hcarry := addResult_toNat hn a b c
  have hc := c.toNat_le
  have hpow : 2 ^ n = 2 * 2 ^ (n - 1) := by rw [Nat.mul_comm, Nat.two_pow_pred_mul_two hn]
  have hcast : ((2 ^ (n - 1) : Nat) : Int) = 2 ^ (n - 1) := by push_cast; rfl
  have hr := (addResult a b c).isLt
  have ha := a.isLt
  have hb := b.isLt
  rw [hpow] at hcarry hr ha hb
  simp only [BitVec.msb_eq_decide, Bool.and_eq_true, beq_iff_eq, bne_iff_ne, ne_eq, decide_eq_decide]
  rw [FitsSigned, ← hcast, toInt_eq_sub_of_top hn a, toInt_eq_sub_of_top hn b]
  generalize 2 ^ (n - 1) = m at hcarry hr ha hb ⊢
  split at hcarry
  · omega
  · omega

/-- The flags of a sum are those the spec gives it (R21 to R26). -/
theorem addFlags_isSum (f : Psw) (a b : BitVec n) (c : Bool) :
    SameControlFlags f (addFlags f a b c) ∧ IsSum a b c (addResult a b c) (addFlags f a b c) ∧
      CarryOut a b c (addFlags f a b c) := by
  have hmod : (addResult a b c).toNat = (a.toNat + b.toNat + c.toNat) % 2 ^ n := by
    rw [← addResult_toNat hn a b c]
    split
    · rw [Nat.add_mod_right, Nat.mod_eq_of_lt (addResult a b c).isLt]
    · rw [Nat.add_zero, Nat.mod_eq_of_lt (addResult a b c).isLt]
  exact ⟨⟨rfl, rfl, rfl, rfl⟩,
    ⟨hmod, decide_eq_true_iff, addResult_overflow_iff hn a b c, setSZP_signZeroParity f _⟩, decide_eq_true_iff⟩

end Sum

/-! ### The eight operations -/

theorem width_bits_pos (w : Width) : 0 < w.bits := by cases w <;> decide

/-- The computation of each operation (R181 to R185, R251 to R253). -/
def aluBinOp : AluOp → BinOp
  | .add => addOp
  | .or => orOp
  | .addc => addcOp
  | .subc => subcOp
  | .and => andOp
  | .sub | .cmp => subOp
  | .xor => xorOp

/-- A logical operation writes PSW and draws AC: CY and V are reset, S, Z and P are of the result (R31). -/
theorem logicOp_isLogical {n : Nat} (r : BitVec n) (s : State) :
    ∃ f, logicOp r s = (r, { s with psw := f, draws := s.draws + 1 }) ∧ SameControlFlags s.psw f ∧ IsLogical r f :=
  ⟨_, rfl, ⟨rfl, rfl, rfl, rfl⟩, rfl, rfl, setSZP_signZeroParity s.psw r⟩

/-- Every operation gives the result of its rule, and writes its flags and the count of undefined values alone. -/
theorem aluBinOp_spec (o : AluOp) (w : Width) (a b : BitVec w.bits) (s : State) :
    ∃ r f k, aluBinOp o w.bits a b s = (r, { s with psw := f, draws := k }) ∧ AluResult o a b r s.psw f := by
  have hw := width_bits_pos w
  cases o with
  | add => exact ⟨_, _, _, rfl, addFlags_isSum hw s.psw a b false⟩
  | addc => exact ⟨_, _, _, rfl, addFlags_isSum hw s.psw a b s.psw.cy⟩
  | sub | cmp => exact ⟨_, _, _, rfl, subFlags_isDifference hw s.psw a b false⟩
  | subc => exact ⟨_, _, _, rfl, subFlags_isDifference hw s.psw a b s.psw.cy⟩
  | and =>
    obtain ⟨f, he, hcontrol, hlogical⟩ := logicOp_isLogical (a &&& b) s
    exact ⟨_, f, _, he, hcontrol, fun _ => BitVec.getLsbD_and, hlogical⟩
  | or =>
    obtain ⟨f, he, hcontrol, hlogical⟩ := logicOp_isLogical (a ||| b) s
    exact ⟨_, f, _, he, hcontrol, fun _ => BitVec.getLsbD_or, hlogical⟩
  | xor =>
    obtain ⟨f, he, hcontrol, hlogical⟩ := logicOp_isLogical (a ^^^ b) s
    exact ⟨_, f, _, he, hcontrol, fun _ => BitVec.getLsbD_xor, hlogical⟩

/-! ### The operand forms -/

section Forms

variable {o : AluOp} (h : o ≠ .cmp) (s : State)
include h

theorem exec_memRegForm_eq (w : Width) (dst : RM) (src : Reg) :
    exec (memRegForm o w dst src) s = .next (binRmReg (aluBinOp o) w dst src s) := by
  cases o with
  | cmp => exact absurd rfl h
  | _ => rfl

theorem exec_regMemForm_eq (w : Width) (dst : Reg) (src : RM) :
    exec (regMemForm o w dst src) s = .next (binRegRm (aluBinOp o) w dst src s) := by
  cases o with
  | cmp => exact absurd rfl h
  | _ => rfl

theorem exec_accForm_eq (v : Imm) : exec (accForm o v) s = .next (binAccImm (aluBinOp o) v s) := by
  cases o with
  | cmp => exact absurd rfl h
  | _ => rfl

theorem exec_groupForm_eq (dst : RM) (v : ImmS) :
    exec (groupForm o dst v) s = .next (binRmImm (aluBinOp o) dst v s) := by
  cases o with
  | cmp => exact absurd rfl h
  | _ => rfl

end Forms

/-- Every form of an operation that stores is the one computation on destination and source, and the one write of its
result to the destination (R180, R250). -/
theorem AluForm.exec_eq {s : State} {i : Instr} {o : AluOp} {w : Width} {dst : RM} {b : BitVec w.bits}
    (h : AluForm s i o w dst b) (ho : o ≠ .cmp) : exec i s = .next (binRmVal (aluBinOp o) w dst b s) := by
  cases h with
  | rmReg => exact exec_memRegForm_eq ho s _ _ _
  | regRm => exact exec_regMemForm_eq ho s _ _ _
  | accByte | accWord => exact exec_accForm_eq ho s _
  | imm80 | imm81 | imm82 | imm83 => exact exec_groupForm_eq ho s _ _

/-- Every form of CMP is the subtraction without the write (R185). -/
theorem AluForm.exec_cmp_eq {s : State} {i : Instr} {w : Width} {dst : RM} {b : BitVec w.bits}
    (h : AluForm s i .cmp w dst b) : exec i s = .next (tstRmVal subOp w dst b s) := by
  cases h <;> rfl

/-- Every form of TEST is the AND without the write (R256). -/
theorem TestForm.exec_eq {s : State} {i : Instr} {w : Width} {dst : RM} {b : BitVec w.bits}
    (h : TestForm s i w dst b) : exec i s = .next (tstRmVal andOp w dst b s) := by
  cases h <;> rfl

/-- Settles O11: every form computes once, and writes its result once after the flags. -/
theorem aluWritesResultAndFlags : Obligations.AluWritesResultAndFlags := by
  intro s i o w dst b h ho
  obtain ⟨r, f, k, hop, hresult⟩ := aluBinOp_spec o w (s.readRM w dst) b s
  obtain ⟨hwrites, hpsw, -⟩ := State.writeRM_writes s f k w dst r
  refine ⟨_, r, h.exec_eq ho, ?_⟩
  rw [binRmVal, hop]
  exact ⟨hpsw.symm ▸ hresult, hwrites⟩

/-- Settles O12: CMP and TEST are the computations of SUB and AND with the result dropped. -/
theorem compareAndTestWriteOnlyFlags : Obligations.CompareAndTestWriteOnlyFlags := by
  intro s i w dst b
  constructor
  · intro h
    exact ⟨_, _, h.exec_cmp_eq, subFlags_cmp w s.psw (s.readRM w dst) b, rfl⟩
  · intro h
    obtain ⟨r, f, k, hop, hresult⟩ := aluBinOp_spec .and w (s.readRM w dst) b s
    have ht : exec i s = .next { s with psw := f, draws := k } :=
      h.exec_eq.trans (congrArg (fun x => Host.Outcome.next x.2) hop)
    exact ⟨_, r, ht, hresult, rfl⟩

/-! ### Counting and complements -/

/-- Every form of INC and DEC writes the operand plus or minus 1 after its flags, with CY kept (R186, R187). -/
theorem CountForm.exec_eq {i : Instr} {up : Bool} {w : Width} {dst : RM} (h : CountForm i up w dst) (s : State) :
    ∃ f r, exec i s = .next (({ s with psw := f, draws := s.draws } : State).writeRM w dst r) ∧
      SameControlFlags s.psw f ∧ f.cy = s.psw.cy ∧
      if up then IsSum (s.readRM w dst) 1 false r f else IsDifference (s.readRM w dst) 1 false r f := by
  obtain ⟨hcontrol, hsum, -⟩ := addFlags_isSum (width_bits_pos w) s.psw (s.readRM w dst) 1 false
  obtain ⟨hcontrol', hdiff, -⟩ := subFlags_isDifference (width_bits_pos w) s.psw (s.readRM w dst) 1 false
  cases h with
  | incReg | incRm =>
    exact ⟨{ addFlags s.psw (s.readRM _ _) 1 false with cy := s.psw.cy }, _, rfl, hcontrol, rfl, hsum⟩
  | decReg | decRm =>
    exact ⟨{ subFlags s.psw (s.readRM _ _) 1 false with cy := s.psw.cy }, _, rfl, hcontrol', rfl, hdiff⟩

/-- Settles O13: the flags of the sum or difference are written but for CY, then the result. -/
theorem incrementKeepsCarry : Obligations.IncrementKeepsCarry := by
  intro s i up w dst h
  obtain ⟨f, r, he, hcontrol, hcy, hresult⟩ := h.exec_eq s
  obtain ⟨hwrites, hpsw, hdraws⟩ := State.writeRM_writes s f s.draws w dst r
  refine ⟨_, r, he, ?_⟩
  rw [hpsw]
  exact ⟨hcontrol, hcy, hdraws, hresult, hwrites⟩

/-- NEG is `0 − dst` and its flags (R188). -/
theorem exec_negRm_eq (s : State) (w : Width) (dst : RM) :
    exec (.negRm w dst) s =
      .next (({ s with psw := subFlags s.psw 0 (s.readRM w dst) false, draws := s.draws } : State).writeRM w dst
        (subResult 0 (s.readRM w dst) false)) := rfl

/-- NOT is the complement (R189). -/
theorem exec_notRm_eq (s : State) (w : Width) (dst : RM) :
    exec (.notRm w dst) s = .next (s.writeRM w dst (~~~(s.readRM w dst))) := rfl

/-- There is a borrow from 0 exactly if something is subtracted. -/
theorem borrowIn_zero_iff {n : Nat} {d : BitVec n} {f : Psw} (h : BorrowIn 0 d false f) : f.cy = true ↔ d ≠ 0 := by
  refine h.trans ?_
  rw [← BitVec.toNat_ne_iff_ne]
  exact Nat.pos_iff_ne_zero

/-- Settles O14: NEG is a difference from 0, NOT the complement to all ones. -/
theorem complementsComplete : Obligations.ComplementsComplete := by
  intro s w dst
  constructor
  · obtain ⟨hcontrol, hdiff, hborrow⟩ := subFlags_isDifference (width_bits_pos w) s.psw 0 (s.readRM w dst) false
    obtain ⟨hwrites, hpsw, -⟩ := State.writeRM_writes s (subFlags s.psw 0 (s.readRM w dst) false) s.draws w dst
      (subResult 0 (s.readRM w dst) false)
    refine ⟨_, subResult 0 (s.readRM w dst) false, exec_negRm_eq s w dst, ?_⟩
    rw [hpsw]
    exact ⟨hdiff, hcontrol, borrowIn_zero_iff hborrow, hwrites⟩
  · obtain ⟨hwrites, hpsw, hdraws⟩ := writeRM_complete s w dst (~~~(s.readRM w dst))
    have hlt := (s.readRM w dst).isLt
    refine ⟨_, _, exec_notRm_eq s w dst, ?_, hpsw, hdraws, hwrites⟩
    rw [BitVec.toNat_not]
    omega

end Sys2Proof.Machine
end

section
/-! PROOFS. Multiplication (43_arithmetic.md): O15. -/

namespace Sys2Proof.Machine

/-! ### Values of joined and extended words -/

/-- The value of two joined fields. -/
theorem toNat_append_eq {n m : Nat} (hi : BitVec n) (lo : BitVec m) :
    (hi ++ lo).toNat = 2 ^ m * hi.toNat + lo.toNat := by
  rw [BitVec.toNat_append, ← Nat.shiftLeft_add_eq_or_of_lt lo.isLt, Nat.shiftLeft_eq, Nat.mul_comm]

/-- The signed value of two joined fields. -/
theorem toInt_append_eq {n m : Nat} (hn : 0 < n) (hi : BitVec n) (lo : BitVec m) :
    (hi ++ lo).toInt = 2 ^ m * hi.toInt + lo.toNat := by
  rw [BitVec.toInt_append, if_neg (by simpa using Nat.pos_iff_ne_zero.mp hn)]

/-- A doubleword is its high-order word before its low-order word. -/
theorem highWord_append_lowWord (p : BitVec 32) : (p.extractLsb' 16 16 ++ p.setWidth 16 : BitVec 32) = p := by
  rw [BitVec.setWidth_eq_extractLsb' (by decide)]
  exact BitVec.extractLsb'_append_extractLsb' (w := 16) (len := 16)

/-- A narrower word keeps the signed value modulo its width. -/
theorem setWidth_eq_ofInt {n m : Nat} (h : n ≤ m) (p : BitVec m) : p.setWidth n = BitVec.ofInt n p.toInt :=
  (BitVec.signExtend_eq_setWidth_of_le p h).symm

/-- A balanced remainder modulo 2^n is the value itself exactly if the value is a signed one of the width. -/
theorem bmod_two_pow_eq_self_iff {n : Nat} (hn : 0 < n) (x : Int) : x.bmod (2 ^ n) = x ↔ FitsSigned n x := by
  have hpow : 2 ^ n = 2 * 2 ^ (n - 1) := by rw [Nat.mul_comm, Nat.two_pow_pred_mul_two hn]
  have hcast : ((2 ^ (n - 1) : Nat) : Int) = 2 ^ (n - 1) := by push_cast; rfl
  rw [Int.bmod_eq_iff (Nat.two_pow_pos n), Int.sub_self, FitsSigned, ← hcast, hpow]
  generalize 2 ^ (n - 1) = m
  constructor
  · intro ⟨hlow, hhigh, _⟩
    omega
  · intro ⟨hlow, hhigh⟩
    exact ⟨by omega, by omega, Int.dvd_zero _⟩

/-- A signed value of the width is read back from the word that holds it. -/
theorem toInt_ofInt_of_fits {n : Nat} (hn : 0 < n) {x : Int} (h : FitsSigned n x) : (BitVec.ofInt n x).toInt = x := by
  rw [BitVec.toInt_ofInt]
  exact (bmod_two_pow_eq_self_iff hn x).mpr h

/-- A word is no sign extension of its low-order part exactly if its signed value does not fit there. -/
theorem ne_signExtend_setWidth_iff {n m : Nat} (hn : 0 < n) (h : n ≤ m) (p : BitVec m) :
    (p != (p.setWidth n).signExtend m) = true ↔ ¬ FitsSigned n p.toInt := by
  rw [bne_iff_ne, ne_eq, ← BitVec.toInt_inj, BitVec.toInt_signExtend_of_le h, setWidth_eq_ofInt h, BitVec.toInt_ofInt,
    eq_comm, bmod_two_pow_eq_self_iff hn]

/-! ### Exact products -/

/-- The product of two zero-extended operands at twice their width is exact. -/
theorem toNat_mul_setWidth {n : Nat} (a b : BitVec n) :
    (a.setWidth (n * 2) * b.setWidth (n * 2)).toNat = a.toNat * b.toNat := by
  have hle : n ≤ n * 2 := by omega
  have hext (x : BitVec n) : (x.setWidth (n * 2)).toNat = x.toNat := by
    rw [BitVec.toNat_setWidth, Nat.mod_eq_of_lt (Nat.lt_of_lt_of_le x.isLt (Nat.pow_le_pow_right (by decide) hle))]
  rw [BitVec.toNat_mul_of_lt, hext, hext]
  rw [hext, hext]
  exact BitVec.toNat_mul_toNat_lt

/-- The product of two sign-extended operands at twice their width is exact. -/
theorem toInt_mul_signExtend {n : Nat} (hn : 0 < n) (a b : BitVec n) :
    (a.signExtend (n * 2) * b.signExtend (n * 2)).toInt = a.toInt * b.toInt := by
  have hle : n ≤ n * 2 := by omega
  have hpow : ((2 ^ (n * 2) : Nat) : Int) = 4 * 2 ^ (n * 2 - 2) := by
    rw [show n * 2 = 2 + (n * 2 - 2) by omega, Nat.pow_add, show 2 + (n * 2 - 2) - 2 = n * 2 - 2 by omega]
    push_cast
    rfl
  have hpos : (0 : Int) < 2 ^ (n * 2 - 2) := Int.pow_pos (by decide)
  have hlow := BitVec.le_toInt_mul_toInt (x := a) (y := b)
  have hhigh := BitVec.toInt_mul_toInt_le (x := a) (y := b)
  rw [BitVec.toInt_mul, BitVec.toInt_signExtend_of_le hle, BitVec.toInt_signExtend_of_le hle,
    Int.bmod_eq_of_le_mul_two]
  · rw [hpow]
    omega
  · rw [hpow]
    omega

/-! ### Multiplication -/

/-- A multiplication leaves CY and V alike, and draws the other status flags (R190, R191, R200). -/
theorem mulFlags_eq (o : Bool) (s : State) :
    ∃ f k, mulFlags o s = { s with psw := f, draws := k } ∧ f.cy = o ∧ f.v = f.cy ∧ SameControlFlags s.psw f := by
  refine ⟨{ s.psw with
    cy := o, v := o, ac := Config.freeBit s.draws, p := Config.freeBit (s.draws + 1)
    s := Config.freeBit (s.draws + 2), z := Config.freeBit (s.draws + 3) },
    s.draws + 4, ?_, rfl, rfl, rfl, rfl, rfl, rfl⟩
  simp only [mulFlags, State.undefAC, State.undefP, State.undefS, State.undefZ]

/-- The high-order byte of a word is not 0 exactly if the word needs more than a byte. -/
theorem highByte_ne_zero_iff (p : Word) : (highByte p != 0) = true ↔ 2 ^ 8 ≤ p.toNat := by
  have hjoin : p.toNat = 2 ^ 8 * (highByte p).toNat + (lowByte p).toNat := by
    rw [← toNat_append_eq, highByte_append_lowByte]
  have hlow := (lowByte p).isLt
  rw [bne_iff_ne, ← BitVec.toNat_ne_iff_ne]
  show (highByte p).toNat ≠ 0 ↔ _
  omega

/-- MULU of bytes (R190). -/
theorem exec_muluRm_byte (s : State) (src : RM) :
    ∃ t, exec (.muluRm .byte src) s = .next t ∧ t.aw.toNat = s.al.toNat * (s.readRM .byte src).toNat ∧
      (t.psw.cy = true ↔ 2 ^ 8 ≤ t.aw.toNat) ∧ t.psw.v = t.psw.cy ∧ SameControlFlags s.psw t.psw ∧
      t = { s with aw := t.aw, psw := t.psw, draws := t.draws } := by
  let p := zext16 s.al * zext16 (s.readRM .byte src)
  obtain ⟨f, k, ht, hcy, hv, hcontrol⟩ := mulFlags_eq (highByte p != 0) { s with aw := p }
  refine ⟨_, congrArg Host.Outcome.next ht, toNat_mul_setWidth s.al _, ?_, hv, hcontrol, rfl⟩
  exact (Bool.eq_iff_iff.mp hcy).trans (highByte_ne_zero_iff p)

/-- MULU of words (R190). -/
theorem exec_muluRm_word (s : State) (src : RM) :
    ∃ t, exec (.muluRm .word src) s = .next t ∧
      2 ^ 16 * t.dw.toNat + t.aw.toNat = s.aw.toNat * (s.readRM .word src).toNat ∧
      (t.psw.cy = true ↔ t.dw ≠ 0) ∧ t.psw.v = t.psw.cy ∧ SameControlFlags s.psw t.psw ∧
      t = { s with aw := t.aw, dw := t.dw, psw := t.psw, draws := t.draws } := by
  let p : BitVec 32 := s.aw.setWidth 32 * (s.readRM .word src).setWidth 32
  obtain ⟨f, k, ht, hcy, hv, hcontrol⟩ :=
    mulFlags_eq (p.extractLsb' 16 16 != 0) { s with aw := p.setWidth 16, dw := p.extractLsb' 16 16 }
  refine ⟨_, congrArg Host.Outcome.next ht, ?_, ?_, hv, hcontrol, rfl⟩
  · rw [← toNat_append_eq, highWord_append_lowWord]
    exact toNat_mul_setWidth s.aw _
  · exact (Bool.eq_iff_iff.mp hcy).trans bne_iff_ne

/-- MUL of bytes (R191). -/
theorem exec_mulRm_byte (s : State) (src : RM) :
    ∃ t, exec (.mulRm .byte src) s = .next t ∧ t.aw.toInt = s.al.toInt * (s.readRM .byte src).toInt ∧
      (t.psw.cy = true ↔ ¬ FitsSigned 8 t.aw.toInt) ∧ t.psw.v = t.psw.cy ∧ SameControlFlags s.psw t.psw ∧
      t = { s with aw := t.aw, psw := t.psw, draws := t.draws } := by
  let p := sext16 s.al * sext16 (s.readRM .byte src)
  obtain ⟨f, k, ht, hcy, hv, hcontrol⟩ := mulFlags_eq (p != sext16 (lowByte p)) { s with aw := p }
  refine ⟨_, congrArg Host.Outcome.next ht, toInt_mul_signExtend (n := 8) (by decide) s.al _, ?_, hv, hcontrol, rfl⟩
  rw [sext16, lowByte, ← BitVec.setWidth_eq_extractLsb' (by decide)] at hcy
  exact (Bool.eq_iff_iff.mp hcy).trans (ne_signExtend_setWidth_iff (by decide) (by decide) p)

/-- MUL of words (R191). -/
theorem exec_mulRm_word (s : State) (src : RM) :
    ∃ t, exec (.mulRm .word src) s = .next t ∧
      2 ^ 16 * t.dw.toInt + t.aw.toNat = s.aw.toInt * (s.readRM .word src).toInt ∧
      (t.psw.cy = true ↔ ¬ FitsSigned 16 (s.aw.toInt * (s.readRM .word src).toInt)) ∧ t.psw.v = t.psw.cy ∧
      SameControlFlags s.psw t.psw ∧ t = { s with aw := t.aw, dw := t.dw, psw := t.psw, draws := t.draws } := by
  let p : BitVec 32 := s.aw.signExtend 32 * (s.readRM .word src).signExtend 32
  have hp : p.toInt = s.aw.toInt * (s.readRM .word src).toInt := toInt_mul_signExtend (n := 16) (by decide) s.aw _
  obtain ⟨f, k, ht, hcy, hv, hcontrol⟩ := mulFlags_eq (p != (p.setWidth 16).signExtend 32)
    { s with aw := p.setWidth 16, dw := p.extractLsb' 16 16 }
  refine ⟨_, congrArg Host.Outcome.next ht, ?_, ?_, hv, hcontrol, rfl⟩
  · rw [← toInt_append_eq (by decide), highWord_append_lowWord, hp]
  · rw [← hp]
    exact (Bool.eq_iff_iff.mp hcy).trans (ne_signExtend_setWidth_iff (by decide) (by decide) p)

/-- The flags of a multiplication are the same before the write of a register and after it. -/
theorem mulFlags_setReg16 (o : Bool) (s : State) (r : Reg) (v : Word) :
    mulFlags o (s.setReg16 r v) = (mulFlags o s).setReg16 r v := by
  cases r <;> rfl

/-- `MUL dst, src1, src2` (R200, D24). -/
theorem mulThree_spec (s : State) (dst : Reg) (src : RM) (k : Word) :
    let t := mulThree dst src k s
    t.reg16 dst = BitVec.ofInt 16 ((s.readRM .word src).toInt * k.toInt) ∧
      (t.psw.cy = true ↔ ¬ FitsSigned 16 ((s.readRM .word src).toInt * k.toInt)) ∧ t.psw.v = t.psw.cy ∧
      SameControlFlags s.psw t.psw ∧ OnlyReg .word dst s t ∧ RegisterFrame s t := by
  intro t
  let p : BitVec 32 := (s.readRM .word src).signExtend 32 * k.signExtend 32
  have hp : p.toInt = (s.readRM .word src).toInt * k.toInt := toInt_mul_signExtend (n := 16) (by decide) _ k
  obtain ⟨f, d, hm, hcy, hv, hcontrol⟩ := mulFlags_eq (p != (p.setWidth 16).signExtend 32) s
  have ht : t = ({ s with psw := f, draws := d } : State).writeRM .word (.reg dst) (p.setWidth 16) := by
    rw [← hm]
    exact mulFlags_setReg16 _ s dst _
  obtain ⟨⟨hreg, honly, hframe⟩, hpsw, -⟩ := State.writeRM_writes s f d .word (.reg dst) (p.setWidth 16)
  rw [← ht] at hreg honly hframe hpsw
  rw [hpsw, ← hp]
  exact ⟨hreg.trans (setWidth_eq_ofInt (by decide) p),
    (Bool.eq_iff_iff.mp hcy).trans (ne_signExtend_setWidth_iff (by decide) (by decide) p), hv, hcontrol, honly, hframe⟩

theorem exec_mulRegRmImm16_eq (s : State) (dst : Reg) (src : RM) (k : Word) :
    exec (.mulRegRmImm16 dst src k) s = .next (mulThree dst src k s) := rfl
theorem exec_mulRegRmImm8_eq (s : State) (dst : Reg) (src : RM) (b : Byte) :
    exec (.mulRegRmImm8 dst src b) s = .next (mulThree dst src (b.signExtend 16) s) := rfl

/-- Settles O15: a product at twice the operands' width is exact, and its flag compares it with its low-order half. -/
theorem multiplicationIsExact : Obligations.MultiplicationIsExact := by
  intro s src dst k b
  refine ⟨exec_muluRm_byte s src, exec_muluRm_word s src, exec_mulRm_byte s src, exec_mulRm_word s src, ?_⟩
  rintro i (rfl | ⟨rfl, rfl⟩)
  · exact ⟨_, exec_mulRegRmImm16_eq s dst src k, mulThree_spec s dst src k⟩
  · exact ⟨_, exec_mulRegRmImm8_eq s dst src b, mulThree_spec s dst src _⟩

end Sys2Proof.Machine
end

section
/-! PROOFS. Division and the divide error (43_arithmetic.md): O16 and O17. -/

namespace Sys2Proof.Machine

/-! ### Quotients and remainders as words -/

/-- An unsigned quotient in range and its remainder, held in words, make up the dividend (R202). -/
theorem udiv_words {n a : Nat} {d : BitVec n} (hd : d.toNat ≠ 0) (hq : a / d.toNat < 2 ^ n) :
    (BitVec.ofNat n (a / d.toNat)).toNat * d.toNat + (BitVec.ofNat n (a % d.toNat)).toNat = a ∧
      (BitVec.ofNat n (a % d.toNat)).toNat < d.toNat := by
  have hr : a % d.toNat < d.toNat := Nat.mod_lt a (Nat.pos_iff_ne_zero.mpr hd)
  rw [BitVec.toNat_ofNat, BitVec.toNat_ofNat, Nat.mod_eq_of_lt hq, Nat.mod_eq_of_lt (Nat.lt_trans hr d.isLt)]
  exact ⟨Nat.div_add_mod' a d.toNat, hr⟩

/-- A remainder has the sign of the dividend or is 0. -/
theorem tmod_mul_self_nonneg (a b : Int) : 0 ≤ a.tmod b * a := by
  rcases Int.le_total 0 a with h | h
  · exact Int.mul_nonneg (Int.tmod_nonneg b h) h
  · rw [← Int.neg_mul_neg, ← Int.neg_tmod]
    exact Int.mul_nonneg (Int.tmod_nonneg b (Int.neg_nonneg_of_nonpos h)) (Int.neg_nonneg_of_nonpos h)

/-- A signed quotient truncated toward zero and in range, and its remainder, held in words, make up the dividend; the
remainder is smaller than the divisor and has the sign of the dividend or is 0 (R203, D25). -/
theorem sdiv_words {n : Nat} (hn : 0 < n) {a : Int} {d : BitVec n} (hd : d.toInt ≠ 0)
    (hq : FitsSigned n (a.tdiv d.toInt)) :
    (BitVec.ofInt n (a.tdiv d.toInt)).toInt * d.toInt + (BitVec.ofInt n (a.tmod d.toInt)).toInt = a ∧
      (BitVec.ofInt n (a.tmod d.toInt)).toInt.natAbs < d.toInt.natAbs ∧
      0 ≤ (BitVec.ofInt n (a.tmod d.toInt)).toInt * a := by
  have hlt : (a.tmod d.toInt).natAbs < d.toInt.natAbs := by
    rw [Int.natAbs_tmod]
    exact Nat.mod_lt _ (Int.natAbs_pos.mpr hd)
  have hr : FitsSigned n (a.tmod d.toInt) := by
    have hlow := BitVec.le_toInt d
    have hhigh := BitVec.toInt_lt (x := d)
    exact ⟨by omega, by omega⟩
  rw [toInt_ofInt_of_fits hn hq, toInt_ofInt_of_fits hn hr]
  exact ⟨Int.tdiv_mul_add_tmod a d.toInt, hlt, tmod_mul_self_nonneg a d.toInt⟩

/-! ### The dividend -/

/-- A byte division divides AW (R202). -/
theorem dividend_byte_toNat (s : State) : (s.dividend .byte).toNat = s.aw.toNat :=
  BitVec.toNat_setWidth_of_le (by decide)

/-- A word division divides DW before AW (R202, R203). -/
theorem dividend_word_eq (s : State) : s.dividend .word = (s.dw ++ s.aw : BitVec 32) := by
  rw [State.dividend, ← BitVec.setWidth_append_eq_shiftLeft_setWidth_or]
  exact BitVec.setWidth_eq _

/-! ### The two outcomes of a division -/

/-- DIVU (R202). -/
theorem exec_divuRm_eq (s : State) (w : Width) (src : RM) :
    exec (.divuRm w src) s =
      if (s.readRM w src).toNat = 0 ∨ 2 ^ w.bits ≤ (s.dividend w).toNat / (s.readRM w src).toNat then
        .next (divideError w s.undefStatus)
      else
        .next (s.undefStatus.setQuotient w (BitVec.ofNat w.bits ((s.dividend w).toNat / (s.readRM w src).toNat))
          (BitVec.ofNat w.bits ((s.dividend w).toNat % (s.readRM w src).toNat))) := rfl

/-- DIV (R203). -/
theorem exec_divRm_eq (s : State) (w : Width) (src : RM) :
    exec (.divRm w src) s =
      if (s.readRM w src).toInt = 0 ∨ 2 ^ (w.bits - 1) - 1 < (s.signedDividend w).tdiv (s.readRM w src).toInt ∨
          (s.signedDividend w).tdiv (s.readRM w src).toInt < -(2 ^ (w.bits - 1) - 1) then
        .next (divideError w s.undefStatus)
      else
        .next (s.undefStatus.setQuotient w
          (BitVec.ofInt w.bits ((s.signedDividend w).tdiv (s.readRM w src).toInt))
          (BitVec.ofInt w.bits ((s.signedDividend w).tmod (s.readRM w src).toInt))) := rfl

/-- Where the quotient is in range DIVU writes it and the remainder, and opens the status flags (R202). -/
theorem exec_divuRm_in_range {s : State} {w : Width} {src : RM} (hd : (s.readRM w src).toNat ≠ 0)
    (hq : (s.dividend w).toNat / (s.readRM w src).toNat < 2 ^ w.bits) :
    ∃ f k q r, exec (.divuRm w src) s = .next (({ s with psw := f, draws := k } : State).setQuotient w q r) ∧
      SameControlFlags s.psw f ∧
      q.toNat * (s.readRM w src).toNat + r.toNat = (s.dividend w).toNat ∧ r.toNat < (s.readRM w src).toNat := by
  obtain ⟨f, k, hs, hcontrol⟩ := undefStatus_statusDrawn s
  refine ⟨f, k, _, _, ?_, hcontrol, udiv_words hd hq⟩
  rw [exec_divuRm_eq, if_neg (not_or.mpr ⟨hd, Nat.not_le.mpr hq⟩), hs]

/-- Where the quotient is in range DIV writes it and the remainder, and opens the status flags (R203). -/
theorem exec_divRm_in_range {s : State} {w : Width} {src : RM} {a : Int} (ha : s.signedDividend w = a)
    (hd : (s.readRM w src).toInt ≠ 0) (hlow : -(2 ^ (w.bits - 1) - 1) ≤ a.tdiv (s.readRM w src).toInt)
    (hhigh : a.tdiv (s.readRM w src).toInt ≤ 2 ^ (w.bits - 1) - 1) :
    ∃ f k q r, exec (.divRm w src) s = .next (({ s with psw := f, draws := k } : State).setQuotient w q r) ∧
      SameControlFlags s.psw f ∧ q.toInt * (s.readRM w src).toInt + r.toInt = a ∧
      r.toInt.natAbs < (s.readRM w src).toInt.natAbs ∧ 0 ≤ r.toInt * a := by
  subst ha
  obtain ⟨f, k, hs, hcontrol⟩ := undefStatus_statusDrawn s
  refine ⟨f, k, _, _, ?_, hcontrol, sdiv_words (width_bits_pos w) hd ⟨by omega, by omega⟩⟩
  rw [exec_divRm_eq, if_neg (by omega), hs]

/-- The quotient of a byte division is in AL (R202, R203). -/
theorem al_setQuotient (s : State) (q r : Byte) : (s.setQuotient .byte q r).al = q := lowByte_joinBytes q r

/-- The remainder of a byte division is in AH (R202, R203). -/
theorem ah_setQuotient (s : State) (q r : Byte) : (s.setQuotient .byte q r).ah = r := highByte_joinBytes q r

/-- Settles O16: in range the two words written are quotient and remainder of the dividend. -/
theorem divisionCompletesInRange : Obligations.DivisionCompletesInRange := by
  intro s src
  refine ⟨?_, ?_, ?_, ?_⟩
  · intro d hd hq
    rw [← dividend_byte_toNat] at hq ⊢
    obtain ⟨f, k, q, r, he, hcontrol, hsum, hrem⟩ := exec_divuRm_in_range (w := .byte) hd hq
    refine ⟨_, he, ?_⟩
    rw [al_setQuotient, ah_setQuotient]
    exact ⟨hsum, hrem, hcontrol, rfl⟩
  · intro d a hd hq
    have ha : (s.dividend .word).toNat = a := by rw [dividend_word_eq, toNat_append_eq]
    obtain ⟨f, k, q, r, he, hcontrol, hsum, hrem⟩ := exec_divuRm_in_range (w := .word) hd (by rw [ha]; exact hq)
    exact ⟨_, he, hsum.trans ha, hrem, hcontrol, rfl⟩
  · intro d a hd hlow hhigh
    obtain ⟨f, k, q, r, he, hcontrol, hsum, hrem, hsign⟩ := exec_divRm_in_range (w := .byte) (a := a) rfl hd hlow hhigh
    refine ⟨_, he, ?_⟩
    rw [al_setQuotient, ah_setQuotient]
    exact ⟨hsum, hrem, hsign, hcontrol, rfl⟩
  · intro d a hd hlow hhigh
    have ha : s.signedDividend .word = a := by
      rw [State.signedDividend, dividend_word_eq, toInt_append_eq (by decide)]
    obtain ⟨f, k, q, r, he, hcontrol, hsum, hrem, hsign⟩ := exec_divRm_in_range (w := .word) ha hd hlow hhigh
    exact ⟨_, he, hsum, hrem, hsign, hcontrol, rfl⟩

/-! ### The divide error -/

/-- A divide error opens the registers of quotient and remainder, then enters vector 0 (R201, D12). -/
theorem divideError_enters (s : State) (w : Width) :
    ∃ u, Enters 0 s.pc u (divideError w s) ∧
      u = { s with aw := u.aw, dw := u.dw, draws := u.draws } ∧ (w = .byte → u.dw = s.dw) := by
  cases w with
  | byte => exact ⟨_, State.breakSeq_enters _ 0 s.pc, rfl, fun _ => rfl⟩
  | word => exact ⟨_, State.breakSeq_enters _ 0 s.pc, rfl, fun h => Width.noConfusion h⟩

/-- The same after the status flags have been left undefined. -/
theorem divideError_undefStatus_enters (s : State) (w : Width) :
    ∃ u, Enters 0 s.pc u (divideError w s.undefStatus) ∧ SameControlFlags s.psw u.psw ∧
      u = { s with aw := u.aw, dw := u.dw, psw := u.psw, draws := u.draws } ∧ (w = .byte → u.dw = s.dw) := by
  obtain ⟨f, k, hs, hcontrol⟩ := undefStatus_statusDrawn s
  rw [hs]
  obtain ⟨u, henters, hu, hdw⟩ := divideError_enters { s with psw := f, draws := k } w
  refine ⟨u, henters, ?_, ?_, hdw⟩
  · rw [hu]
    exact hcontrol
  · rw [hu]

/-- Settles O17: both divisions leave the status flags undefined and take the one divide error. -/
theorem divideErrorEntersVectorZero : Obligations.DivideErrorEntersVectorZero := by
  intro s w src i h
  obtain ⟨u, hu⟩ := divideError_undefStatus_enters s w
  have hcast : ((2 ^ (w.bits - 1) : Nat) : Int) = 2 ^ (w.bits - 1) := by push_cast; rfl
  have he : exec i s = .next (divideError w s.undefStatus) := by
    rcases h with ⟨rfl, herror⟩ | ⟨rfl, herror⟩
    · rw [exec_divuRm_eq, if_pos herror]
    · rw [exec_divRm_eq, ← hcast, if_pos]
      generalize 2 ^ (w.bits - 1) = limit at herror ⊢
      omega
  exact ⟨u, _, he, hu⟩

end Sys2Proof.Machine
end

section
/-! PROOFS. Decimal adjustment, data conversion and digit rotation (44_bcd_conversion.md): O22, O23 and O24. -/

namespace Sys2Proof.Machine

/-! ### AL and AH -/

/-- AL just written reads as the value (R8). -/
theorem al_setReg8_aw (s : State) (v : Byte) : (s.setReg8 .aw v).al = v := reg_setReg s .byte .aw v

/-- A write to AL leaves AH (R8). -/
theorem ah_setReg8_aw (s : State) (v : Byte) : (s.setReg8 .aw v).ah = s.ah :=
  reg_setReg_ne s .byte (r := .aw) (q := .sp) v (by decide)

/-! ### Decimal adjustment (R230 to R233) -/

theorem exec_adj4a_eq (s : State) : exec .adj4a s = .next (adjustPacked (· + ·) s) := rfl
theorem exec_adj4s_eq (s : State) : exec .adj4s s = .next (adjustPacked (· - ·) s) := rfl
theorem exec_adjba_eq (s : State) : exec .adjba s = .next (adjustUnpacked (· + ·) s) := rfl
theorem exec_adjbs_eq (s : State) : exec .adjbs s = .next (adjustUnpacked (· - ·) s) := rfl

/-- Adjusting or not is adjusting by the amount or by 0. -/
theorem adjust_ite {f : Byte → Byte → Byte} (hf : ∀ a, f a 0 = a) (c : Bool) (a b : Byte) :
    (if c then f a b else a) = f a (if c then b else 0) := by
  rw [apply_ite (f a), hf]

/-- The low-order digit of a byte, kept by masking. -/
theorem toNat_and_lowMask (b : Byte) : (b &&& 0x0F).toNat = b.toNat % 16 := by
  rw [BitVec.toNat_and]
  exact Nat.and_two_pow_sub_one_eq_mod b.toNat 4

/-- ADJ4A and ADJ4S: both conditions are tested in the printed order, and each adjusts AL (R230, R231, D27). -/
theorem adjustPacked_spec {f : Byte → Byte → Byte} (hf : ∀ a, f a 0 = a) (s : State) :
    let t := adjustPacked f s
    let a := f s.al (if adjustLow s then 6 else 0)
    t.psw.ac = adjustLow s ∧ (t.psw.cy = true ↔ 0x9F < a.toNat ∨ s.psw.cy = true) ∧
      t.al = f a (if t.psw.cy then 0x60 else 0) ∧ SignZeroParity t.al t.psw ∧ t.ah = s.ah ∧
      SameControlFlags s.psw t.psw ∧ t = { s with aw := t.aw, psw := t.psw, draws := t.draws } := by
  intro t a
  let high := decide (0x9F < a.toNat) || s.psw.cy
  let r := f a (if high then 0x60 else 0)
  have ht : t = ({ s.setReg8 .aw r with
      psw := setSZP { s.psw with ac := adjustLow s, cy := high } r } : State).undefV := by
    simp only [t, adjustPacked, adjust_ite hf]
    rfl
  clear_value t
  subst ht
  have hal : lowByte (s.setReg8 .aw r).aw = r := al_setReg8_aw s r
  refine ⟨rfl, ?_, hal, ?_, ah_setReg8_aw s r, ⟨rfl, rfl, rfl, rfl⟩, rfl⟩
  · exact (Bool.or_eq_true _ _).to_iff.trans (or_congr_left decide_eq_true_iff)
  · show SignZeroParity (lowByte (s.setReg8 .aw r).aw) _
    rw [hal]
    exact setSZP_signZeroParity { s.psw with ac := adjustLow s, cy := high } r

/-- ADJBA and ADJBS: AL and AH are adjusted where the low digit needs it, then AL's high digit is cleared (R232,
R233). -/
theorem adjustUnpacked_spec {f : Byte → Byte → Byte} (hf : ∀ a, f a 0 = a) (s : State) :
    let t := adjustUnpacked f s
    t.psw.ac = adjustLow s ∧ t.psw.cy = adjustLow s ∧
      t.al.toNat = (f s.al (if adjustLow s then 6 else 0)).toNat % 16 ∧
      t.ah = f s.ah (if adjustLow s then 1 else 0) ∧ SameControlFlags s.psw t.psw ∧
      t = { s with aw := t.aw, psw := t.psw, draws := t.draws } := by
  refine ⟨rfl, rfl, ?_, ?_, ⟨rfl, rfl, rfl, rfl⟩, rfl⟩
  · rw [← adjust_ite hf, ← toNat_and_lowMask]
    exact congrArg BitVec.toNat (lowByte_joinBytes _ _)
  · rw [← adjust_ite hf]
    exact highByte_joinBytes _ _

/-- Settles O22: addition and subtraction of bytes are the two adjustments, and both leave a byte where 0 is added or
subtracted. -/
theorem adjustmentsComplete : Obligations.AdjustmentsComplete := by
  intro s low step6
  have hadd (a : Byte) : a + 0 = a := BitVec.add_zero a
  have hsub (a : Byte) : a - 0 = a := BitVec.sub_zero a
  exact ⟨⟨_, exec_adj4a_eq s, adjustPacked_spec hadd s⟩, ⟨_, exec_adj4s_eq s, adjustPacked_spec hsub s⟩,
    ⟨_, exec_adjba_eq s, adjustUnpacked_spec hadd s⟩, ⟨_, exec_adjbs_eq s, adjustUnpacked_spec hsub s⟩⟩

/-! ### Data conversion (R244 to R247) -/

theorem exec_cvtbd_eq (s : State) :
    exec .cvtbd s = .next (converted (BitVec.ofNat 8 (s.al.toNat % 10)) (BitVec.ofNat 8 (s.al.toNat / 10)) s) := rfl
theorem exec_cvtdb_eq (s : State) : exec .cvtdb s = .next (converted (s.ah * 10 + s.al) 0 s) := rfl
theorem exec_cvtbw_eq (s : State) : exec .cvtbw s = .next { s with aw := sext16 s.al } := rfl
theorem exec_cvtwl_eq (s : State) :
    exec .cvtwl s = .next { s with dw := if s.aw.msb then 0xFFFF else 0x0000 } := rfl

/-- CVTBD and CVTDB load AL and AH, and S, Z and P are of the final AL (R244, R245, D28). -/
theorem converted_spec (l h : Byte) (s : State) :
    let t := converted l h s
    t.al = l ∧ t.ah = h ∧ SignZeroParity t.al t.psw ∧ SameControlFlags s.psw t.psw ∧
      t = { s with aw := t.aw, psw := t.psw, draws := t.draws } := by
  intro t
  have hal : t.al = l := lowByte_joinBytes l h
  refine ⟨hal, highByte_joinBytes l h, ?_, ⟨rfl, rfl, rfl, rfl⟩, rfl⟩
  rw [hal]
  exact setSZP_signZeroParity s.psw l

/-- The low-order byte of a sign-extended byte is the byte (R246). -/
theorem lowByte_sext16 (b : Byte) : lowByte (sext16 b) = b := by
  rw [lowByte, ← BitVec.setWidth_eq_extractLsb' (by decide), setWidth_eq_ofInt (by decide), sext16,
    BitVec.toInt_signExtend_of_le (by decide), BitVec.ofInt_toInt]

/-- A word of sign bits before a word makes the word's signed value (R247). -/
theorem signWord_toInt (v : Word) :
    2 ^ 16 * (if v.msb then 0xFFFF else 0x0000 : Word).toInt + v.toNat = v.toInt := by
  rw [BitVec.toInt_eq_msb_cond v]
  cases v.msb with
  | false => simp
  | true =>
    have hones : (0xFFFF : Word).toInt = -1 := by decide
    rw [if_pos rfl, if_pos rfl, hones]
    omega

/-- Settles O23: quotient and remainder by ten, ten times AH plus AL, and the two sign extensions. -/
theorem conversionsComplete : Obligations.ConversionsComplete := by
  intro s
  have halt := s.al.isLt
  refine ⟨⟨_, exec_cvtbd_eq s, ?_⟩, ⟨_, exec_cvtdb_eq s, ?_⟩, ⟨_, exec_cvtbw_eq s, ?_⟩, ⟨_, exec_cvtwl_eq s, ?_⟩⟩
  · obtain ⟨hal, hah, hspec⟩ :=
      converted_spec (BitVec.ofNat 8 (s.al.toNat % 10)) (BitVec.ofNat 8 (s.al.toNat / 10)) s
    have hrem := (congrArg BitVec.toNat hal).trans (BitVec.toNat_ofNat _ _)
    have hquot := (congrArg BitVec.toNat hah).trans (BitVec.toNat_ofNat _ _)
    exact ⟨by omega, by omega, hspec⟩
  · obtain ⟨hal, hah, hspec⟩ := converted_spec (s.ah * 10 + s.al) 0 s
    refine ⟨?_, hah, hspec⟩
    rw [hal, BitVec.toNat_add, BitVec.toNat_mul, Nat.mod_add_mod]
    rfl
  · exact ⟨lowByte_sext16 s.al, BitVec.toInt_signExtend_of_le (by decide), rfl⟩
  · exact ⟨signWord_toInt s.aw, rfl⟩

/-! ### Digits of a byte -/

theorem toNat_lowDigit (b : Byte) : (lowDigit b).toNat = b.toNat % 16 := by
  rw [lowDigit, BitVec.extractLsb'_toNat, Nat.shiftRight_zero]

theorem toNat_highDigit (b : Byte) : (highDigit b).toNat = b.toNat / 16 := by
  have hlt := b.isLt
  rw [highDigit, BitVec.extractLsb'_toNat, Nat.shiftRight_eq_div_pow]
  omega

theorem toNat_digits (h l : BitVec 4) : (digits h l).toNat = 16 * h.toNat + l.toNat := by
  have happend : digits h l = (h ++ l : BitVec 8) := by
    rw [digits, ← BitVec.setWidth_append_eq_shiftLeft_setWidth_or]
    exact BitVec.setWidth_eq _
  rw [happend]
  exact toNat_append_eq h l

/-! ### Digit rotation (R224, R225) -/

theorem exec_rol4_eq (dst : RM) (s : State) :
    exec (.rol4 dst) s = .next (rotateDigits (fun d a => (digits (lowDigit d) a, highDigit d)) dst s) := rfl
theorem exec_ror4_eq (dst : RM) (s : State) :
    exec (.ror4 dst) s = .next (rotateDigits (fun d a => (digits a (highDigit d), lowDigit d)) dst s) := rfl

/-- The destination is written with its new value, then the low digit of AL with the digit moved out. Where the
destination is AL itself, only AL is written, with no value fixed (U6). -/
theorem rotateDigits_spec (f : Byte → BitVec 4 → Byte × BitVec 4) (dst : RM) (s : State) :
    let t := rotateDigits f dst s
    let v := f (s.readRM .byte dst) (lowDigit s.al)
    t.psw = s.psw ∧
      (dst ≠ .reg .aw → t.al.toNat % 16 = v.2.toNat ∧
        ∃ u, Writes .byte dst v.1 s u ∧ t = { u with aw := t.aw, psw := t.psw, draws := t.draws } ∧ t.ah = u.ah) ∧
      (dst = .reg .aw → t = { s with aw := t.aw, draws := t.draws } ∧ t.ah = s.ah) := by
  intro t v
  by_cases h : dst = .reg .aw
  · subst h
    exact ⟨rfl, fun hne => absurd rfl hne, fun _ => ⟨rfl, ah_setReg8_aw s.drawByte.2 _⟩⟩
  · obtain ⟨hwrites, hpsw, -⟩ := State.writeRM_writes s s.psw (s.draws + 1) .byte dst v.1
    let u := ({ s with psw := s.psw, draws := s.draws + 1 } : State).writeRM .byte dst v.1
    have ht : t = u.setReg8 .aw (digits (highDigit (Config.freeByte s.draws)) v.2) := if_neg h
    have hdigits := toNat_digits (highDigit (Config.freeByte s.draws)) v.2
    have hdigit := v.2.isLt
    rw [ht, al_setReg8_aw, hdigits]
    exact ⟨hpsw, fun _ => ⟨by omega, u, hwrites, rfl, ah_setReg8_aw u _⟩, fun he => absurd he h⟩

/-- Settles O24: what moves is named by the digits of the destination and the low digit of AL. -/
theorem digitRotationsComplete : Obligations.DigitRotationsComplete := by
  intro s dst
  constructor
  · obtain ⟨hpsw, hother, hal⟩ := rotateDigits_spec (fun d a => (digits (lowDigit d) a, highDigit d)) dst s
    refine ⟨_, exec_rol4_eq dst s, hpsw, fun h => ?_, hal⟩
    obtain ⟨hlow, u, hwrites, hrest⟩ := hother h
    refine ⟨hlow.trans (toNat_highDigit _), u, _, hwrites, ?_, hrest⟩
    rw [toNat_digits, toNat_lowDigit, toNat_lowDigit]
  · obtain ⟨hpsw, hother, hal⟩ := rotateDigits_spec (fun d a => (digits a (highDigit d), lowDigit d)) dst s
    refine ⟨_, exec_ror4_eq dst s, hpsw, fun h => ?_, hal⟩
    obtain ⟨hlow, u, hwrites, hrest⟩ := hother h
    refine ⟨hlow.trans (toNat_lowDigit _), u, _, hwrites, ?_, hrest⟩
    rw [toNat_digits, toNat_lowDigit, toNat_highDigit]

end Sys2Proof.Machine
end

section
/-! PROOFS. The BCD string instructions (44_bcd_conversion.md): O25, O26 and O27. An operation on strings is first read
as one on sequences of bytes with a carry, whose decimal values are computed; then the loop of the model is shown to run
it and to write no more than the destination string. -/

namespace Sys2Proof.Machine

/-! ### Packed BCD bytes (R220) -/

/-- A byte of two digits is below 100. -/
theorem bcdValue_lt_of_valid {b : Byte} (h : bcdValid b = true) : bcdValue b < 100 := by
  obtain ⟨hhigh, hlow⟩ : b.toNat / 16 ≤ 9 ∧ b.toNat % 16 ≤ 9 := by
    simpa only [bcdValid, Bool.and_eq_true, decide_eq_true_iff] using h
  rw [bcdValue]
  omega

/-- A value below 100 is read back from its packed byte. -/
theorem bcdValue_bcdByte {v : Nat} (h : v < 100) : bcdValue (bcdByte v) = v := by
  rw [bcdValue, bcdByte, BitVec.toNat_ofNat]
  omega

/-- Only the byte 00H has the value 0. -/
theorem bcdValue_eq_zero_iff (b : Byte) : bcdValue b = 0 ↔ b = 0 := by
  rw [← BitVec.toNat_inj, bcdValue]
  show _ ↔ b.toNat = 0
  omega

/-- Decimal addition of one byte: result and carry make up the sum (R220 (d)). -/
theorem bcdAdd_sum {d e : Byte} (hd : bcdValue d < 100) (he : bcdValue e < 100) (c : Bool) :
    bcdValue (bcdAdd d e c).1 + 100 * (bcdAdd d e c).2.toNat = bcdValue d + bcdValue e + c.toNat := by
  have hc := c.toNat_le
  rw [bcdAdd, bcdValue_bcdByte (Nat.mod_lt _ (by decide))]
  by_cases h : 100 ≤ bcdValue d + bcdValue e + c.toNat
  · rw [decide_eq_true h, Bool.toNat_true]
    omega
  · rw [decide_eq_false h, Bool.toNat_false]
    omega

/-- Decimal subtraction of one byte: the result is the difference, with 100 added where there is a borrow (R220 (d)). -/
theorem bcdSub_difference {d e : Byte} (hd : bcdValue d < 100) (he : bcdValue e < 100) (c : Bool) :
    bcdValue (bcdSub d e c).1 + bcdValue e + c.toNat = bcdValue d + 100 * (bcdSub d e c).2.toNat := by
  have hc := c.toNat_le
  rw [bcdSub, bcdValue_bcdByte (Nat.mod_lt _ (by decide))]
  by_cases h : bcdValue d < bcdValue e + c.toNat
  · rw [decide_eq_true h, Bool.toNat_true]
    omega
  · rw [decide_eq_false h, Bool.toNat_false]
    omega

/-- The result byte of a decimal subtraction is below 100, whatever the operands. -/
theorem bcdSub_lt (d e : Byte) (c : Bool) : bcdValue (bcdSub d e c).1 < 100 := by
  rw [bcdSub, bcdValue_bcdByte (Nat.mod_lt _ (by decide))]
  exact Nat.mod_lt _ (by decide)

/-! ### Sequences of BCD bytes -/

/-- The value of the first `n` bytes of a sequence, the least significant one first. -/
def decimalOf (b : Nat → Byte) : Nat → Nat
  | 0 => 0
  | n + 1 => decimalOf b n + 100 ^ n * bcdValue (b n)

/-- The carry or borrow into byte `n` when a byte operation runs along two sequences. -/
def carryInto (f : Byte → Byte → Bool → Byte × Bool) (d e : Nat → Byte) : Nat → Bool
  | 0 => false
  | n + 1 => (f (d n) (e n) (carryInto f d e n)).2

/-- The result byte `n` of that run. -/
def resultByte (f : Byte → Byte → Bool → Byte × Bool) (d e : Nat → Byte) (n : Nat) : Byte :=
  (f (d n) (e n) (carryInto f d e n)).1

theorem decimalOf_congr {b b' : Nat → Byte} {n : Nat} (h : ∀ k, k < n → b k = b' k) :
    decimalOf b n = decimalOf b' n := by
  induction n with
  | zero => rfl
  | succ n ih => rw [decimalOf, decimalOf, ih fun k hk => h k (by omega), h n (by omega)]

theorem decimalOf_lt {b : Nat → Byte} {n : Nat} (h : ∀ k, k < n → bcdValue (b k) < 100) : decimalOf b n < 100 ^ n := by
  induction n with
  | zero => exact Nat.one_pos
  | succ n ih =>
    have hrest := ih fun k hk => h k (by omega)
    have htop : 100 ^ n * bcdValue (b n) ≤ 100 ^ n * 99 := Nat.mul_le_mul_left _ (by have := h n (by omega); omega)
    rw [decimalOf, Nat.pow_succ]
    omega

/-- A longer string is 0 exactly if the shorter one is and the byte added is 00H. -/
theorem decimalOf_succ_eq_zero_iff (b : Nat → Byte) (n : Nat) :
    decimalOf b (n + 1) = 0 ↔ decimalOf b n = 0 ∧ b n = 0 := by
  rw [decimalOf, Nat.add_eq_zero_iff, Nat.mul_eq_zero, bcdValue_eq_zero_iff, Nat.pow_eq_zero]
  simp

section Arithmetic

variable {d e : Nat → Byte} {n : Nat} (hd : ∀ k, k < n → bcdValue (d k) < 100) (he : ∀ k, k < n → bcdValue (e k) < 100)
include hd he

/-- Decimal addition of sequences: result and last carry make up the sum (R221). -/
theorem decimalOf_add :
    decimalOf (resultByte bcdAdd d e) n + 100 ^ n * (carryInto bcdAdd d e n).toNat = decimalOf d n + decimalOf e n := by
  induction n with
  | zero => rfl
  | succ n ih =>
    have hrest := ih (fun k hk => hd k (by omega)) (fun k hk => he k (by omega))
    have hbyte := bcdAdd_sum (hd n (by omega)) (he n (by omega)) (carryInto bcdAdd d e n)
    have htop := congrArg (100 ^ n * ·) hbyte
    simp only [Nat.mul_add] at htop
    simp only [decimalOf, resultByte, carryInto, Nat.pow_succ, Nat.mul_assoc]
    omega

/-- Decimal subtraction of sequences: the result is the difference, with the power of 100 of the length added where
there is a last borrow (R222). -/
theorem decimalOf_sub :
    decimalOf (resultByte bcdSub d e) n + decimalOf e n = decimalOf d n + 100 ^ n * (carryInto bcdSub d e n).toNat := by
  induction n with
  | zero => rfl
  | succ n ih =>
    have hrest := ih (fun k hk => hd k (by omega)) (fun k hk => he k (by omega))
    have hbyte := bcdSub_difference (hd n (by omega)) (he n (by omega)) (carryInto bcdSub d e n)
    have htop := congrArg (100 ^ n * ·) hbyte
    simp only [Nat.mul_add] at htop
    simp only [decimalOf, resultByte, carryInto, Nat.pow_succ, Nat.mul_assoc]
    omega

/-- The last borrow tells that the first number is smaller, and the difference is 0 where the two are equal. -/
theorem decimalOf_sub_compare :
    (carryInto bcdSub d e n = true ↔ decimalOf d n < decimalOf e n) ∧
      (decimalOf (resultByte bcdSub d e) n = 0 ↔ decimalOf d n = decimalOf e n) := by
  have hsub := decimalOf_sub hd he
  have hdlt := decimalOf_lt hd
  have helt := decimalOf_lt he
  have hrlt : decimalOf (resultByte bcdSub d e) n < 100 ^ n := decimalOf_lt fun k _ => bcdSub_lt _ _ _
  cases hc : carryInto bcdSub d e n with
  | false =>
    rw [hc, Bool.toNat_false, Nat.mul_zero] at hsub
    exact ⟨⟨fun h => Bool.noConfusion h, fun h => by omega⟩, by omega⟩
  | true =>
    rw [hc, Bool.toNat_true, Nat.mul_one] at hsub
    exact ⟨⟨fun _ => by omega, fun _ => rfl⟩, by omega⟩

end Arithmetic

/-! ### The strings in memory -/

/-- Byte `k` of the source string. -/
def State.sourceByte (s : State) (k : Nat) : Byte := s.readByte s.srcSeg (s.ix + BitVec.ofNat 16 k)

/-- Byte `k` of the destination string. -/
def State.destByte (s : State) (k : Nat) : Byte := s.readByte s.ds1 (s.iy + BitVec.ofNat 16 k)

/-- The value of a string in memory is that of the sequence of its bytes. -/
theorem decimal_eq_decimalOf (s : State) (seg base : Word) (n : Nat) :
    decimal s seg base n = decimalOf (fun k => s.readByte seg (base + BitVec.ofNat 16 k)) n := by
  induction n with
  | zero => rfl
  | succ n ih => rw [decimal, decimalOf, ih]

theorem decimal_source_eq (s : State) (n : Nat) : decimal s s.srcSeg s.ix n = decimalOf s.sourceByte n :=
  decimal_eq_decimalOf s s.srcSeg s.ix n

theorem decimal_dest_eq (s : State) (n : Nat) : decimal s s.ds1 s.iy n = decimalOf s.destByte n :=
  decimal_eq_decimalOf s s.ds1 s.iy n

/-- A string has at most 128 bytes. -/
theorem bcdBytes_le (s : State) : bcdBytes s ≤ 128 := by
  have hcl := s.cl.isLt
  rw [bcdBytes]
  omega

/-- Different bytes of a string are at different addresses in the normal address mode. -/
theorem stringByte_addr_ne {s : State} (h : s.NormalAddresses) (seg base : Word) {j k : Nat} (hj : j < 2 ^ 16)
    (hk : k < 2 ^ 16) (hne : j ≠ k) :
    s.addr seg (base + BitVec.ofNat 16 j) ≠ s.addr seg (base + BitVec.ofNat 16 k) := by
  refine State.addr_ne h seg fun heq => hne ?_
  have hnat := congrArg BitVec.toNat ((BitVec.add_right_inj base).mp heq)
  rwa [BitVec.toNat_ofNat, BitVec.toNat_ofNat, Nat.mod_eq_of_lt hj, Nat.mod_eq_of_lt hk] at hnat

/-! ### What may have been written after `n` bytes -/

/-- From `s` to `t` no more has changed than the first `n` bytes of the destination string, with the record of the
stores and the count of undefined values. -/
abbrev StringStored (n : Nat) (s t : State) : Prop :=
  t = { s with draws := t.draws, mem := t.mem, stores := t.stores } ∧
    ∀ a, (∀ k, k < n → a ≠ s.addr s.ds1 (s.iy + BitVec.ofNat 16 k)) → t.mem.read a = s.mem.read a

namespace StringStored

variable {n : Nat} {s t : State}

theorem refl (n : Nat) (s : State) : StringStored n s s := ⟨rfl, fun _ _ => rfl⟩

/-- One more byte of the string stored. -/
theorem writeByte (h : StringStored n s t) (c : Nat) (v : Byte) :
    StringStored (n + 1) s (({ t with draws := c } : State).writeByte t.ds1 (t.iy + BitVec.ofNat 16 n) v) := by
  obtain ⟨hframe, hread⟩ := h
  obtain ⟨c', m, l, rfl⟩ : ∃ c' m l, t = { s with draws := c', mem := m, stores := l } := ⟨_, _, _, hframe⟩
  refine ⟨rfl, fun a ha => ?_⟩
  exact (Memory.read_write_other _ _ _ _ (ha n (by omega))).trans (hread a fun k hk => ha k (by omega))

/-- A source byte outside the bytes stored reads as before. -/
theorem sourceByte_eq (h : StringStored n s t) {j : Nat}
    (hj : ∀ k, k < n → s.addr s.srcSeg (s.ix + BitVec.ofNat 16 j) ≠ s.addr s.ds1 (s.iy + BitVec.ofNat 16 k)) :
    t.sourceByte j = s.sourceByte j := by
  obtain ⟨hframe, hread⟩ := h
  obtain ⟨c, m, l, rfl⟩ : ∃ c m l, t = { s with draws := c, mem := m, stores := l } := ⟨_, _, _, hframe⟩
  exact hread _ hj

/-- A destination byte not yet stored reads as before, in the normal address mode. -/
theorem destByte_eq (h : StringStored n s t) (hnormal : s.NormalAddresses) {j : Nat} (hj : n ≤ j) (hlt : j < 2 ^ 16) :
    t.destByte j = s.destByte j := by
  obtain ⟨hframe, hread⟩ := h
  obtain ⟨c, m, l, rfl⟩ : ∃ c m l, t = { s with draws := c, mem := m, stores := l } := ⟨_, _, _, hframe⟩
  exact hread _ fun k hk => stringByte_addr_ne hnormal s.ds1 s.iy hlt (by omega) (by omega)

end StringStored

/-- A destination byte just stored reads as the value. -/
theorem destByte_writeByte_same (s : State) (k : Nat) (v : Byte) :
    (s.writeByte s.ds1 (s.iy + BitVec.ofNat 16 k) v).destByte k = v := Memory.read_write_same _ _ _

/-- The other destination bytes read as before, in the normal address mode. -/
theorem destByte_writeByte_other {s : State} (h : s.NormalAddresses) {j k : Nat} (hj : j < 2 ^ 16) (hk : k < 2 ^ 16)
    (hne : j ≠ k) (v : Byte) : (s.writeByte s.ds1 (s.iy + BitVec.ofNat 16 k) v).destByte j = s.destByte j :=
  Memory.read_write_other _ _ _ _ (stringByte_addr_ne h s.ds1 s.iy hj hk hne)

/-! ### The loop over the bytes (R220 (h)) -/

/-- The operation after `n` bytes. -/
def bcdRun (f : Byte → Byte → Bool → Byte × Bool) (store : Bool) (s : State) (n : Nat) : BcdRun :=
  (List.range n).foldl (bcdStep f store) { machine := s, carry := false, zero := true, valid := true }

variable (f : Byte → Byte → Bool → Byte × Bool) (store : Bool) (s : State) (n : Nat)

theorem bcdRun_succ : bcdRun f store s (n + 1) = bcdStep f store (bcdRun f store s n) n := by
  rw [bcdRun, List.range_succ, List.foldl_append, List.foldl_cons, List.foldl_nil, bcdRun]

/-- An operation that does not store leaves the machine (R223). -/
theorem bcdRun_machine_of_compare : (bcdRun f false s n).machine = s := by
  induction n with
  | zero => rfl
  | succ n ih =>
    rw [bcdRun_succ]
    exact ih

/-- The loop writes no more than the bytes it has passed. -/
theorem bcdRun_stored : StringStored n s (bcdRun f store s n).machine := by
  cases store with
  | false =>
    rw [bcdRun_machine_of_compare]
    exact StringStored.refl n s
  | true =>
    induction n with
    | zero => exact StringStored.refl 0 s
    | succ n ih =>
      rw [bcdRun_succ]
      exact ih.writeByte (bcdRun f true s n).machine.draws _

/-- The undefined bytes of an operation on an invalid digit are in the destination string (U8). -/
theorem bcdFreeBytes_stored : StringStored n s ((List.range n).foldl bcdFreeByte s) := by
  induction n with
  | zero => exact StringStored.refl 0 s
  | succ n ih =>
    rw [List.range_succ, List.foldl_append, List.foldl_cons, List.foldl_nil]
    exact ih.writeByte _ _

section Values

variable {store} {s} {n} (h : store = false ∨ s.NormalAddresses ∧ StringsApart s)
include h

/-- Where the strings share no byte, or nothing is stored, byte `n` of each is read as it was at the start. -/
theorem bcdRun_reads (hn : n < bcdBytes s) :
    (bcdRun f store s n).machine.sourceByte n = s.sourceByte n ∧
      (bcdRun f store s n).machine.destByte n = s.destByte n := by
  rcases h with rfl | ⟨hnormal, hapart⟩
  · rw [bcdRun_machine_of_compare]
    exact ⟨rfl, rfl⟩
  · have hstored := bcdRun_stored f store s n
    have hlen := bcdBytes_le s
    exact ⟨hstored.sourceByte_eq fun k hk heq => hapart n hn ⟨k, by omega, heq⟩,
      hstored.destByte_eq hnormal (Nat.le_refl n) (by omega)⟩

/-- The loop computes the carry and the zero flag of the two sequences, and finds their digits valid. -/
theorem bcdRun_flags (hd : DigitsOk s) (hn : n ≤ bcdBytes s) :
    (bcdRun f store s n).carry = carryInto f s.destByte s.sourceByte n ∧
      ((bcdRun f store s n).zero = true ↔ decimalOf (resultByte f s.destByte s.sourceByte) n = 0) ∧
      (bcdRun f store s n).valid = true := by
  induction n with
  | zero => exact ⟨rfl, ⟨fun _ => rfl, fun _ => rfl⟩, rfl⟩
  | succ n ih =>
    obtain ⟨hcarry, hzero, hvalid⟩ := ih (by omega)
    obtain ⟨hsource, hdest⟩ := bcdRun_reads f h (n := n) (by omega)
    obtain ⟨hsourceOk, hdestOk⟩ := hd n (by omega)
    have hstep : bcdStep f store (bcdRun f store s n) n =
        { machine := (bcdStep f store (bcdRun f store s n) n).machine
          carry := carryInto f s.destByte s.sourceByte (n + 1)
          zero := (bcdRun f store s n).zero && resultByte f s.destByte s.sourceByte n == 0
          valid := (bcdRun f store s n).valid && bcdValid (s.sourceByte n) && bcdValid (s.destByte n) } := by
      rw [carryInto, resultByte, ← hcarry, ← hsource, ← hdest]
      rfl
    rw [bcdRun_succ, hstep]
    refine ⟨rfl, ?_, ?_⟩
    · rw [decimalOf_succ_eq_zero_iff, Bool.and_eq_true, hzero, beq_iff_eq]
    · rw [hvalid, State.sourceByte, hsourceOk, State.destByte, hdestOk]
      rfl

end Values

/-- The loop that stores leaves the result bytes in the destination string. -/
theorem bcdRun_destByte {s : State} {n : Nat} (hnormal : s.NormalAddresses) (hapart : StringsApart s) (hd : DigitsOk s)
    (hn : n ≤ bcdBytes s) :
    ∀ k, k < n → (bcdRun f true s n).machine.destByte k = resultByte f s.destByte s.sourceByte k := by
  induction n with
  | zero => exact fun k hk => absurd hk (Nat.not_lt_zero k)
  | succ n ih =>
    intro k hk
    have hlen := bcdBytes_le s
    obtain ⟨hsource, hdest⟩ := bcdRun_reads f (store := true) (.inr ⟨hnormal, hapart⟩) (n := n) (by omega)
    obtain ⟨hcarry, -⟩ := bcdRun_flags f (store := true) (.inr ⟨hnormal, hapart⟩) hd (n := n) (by omega)
    generalize hu : (bcdRun f true s n).machine = u at hsource hdest
    have hstep : (bcdRun f true s (n + 1)).machine =
        u.writeByte u.ds1 (u.iy + BitVec.ofNat 16 n) (resultByte f s.destByte s.sourceByte n) := by
      rw [bcdRun_succ, resultByte, ← hcarry, ← hsource, ← hdest, ← hu]
      rfl
    have hunormal : u.NormalAddresses := by
      obtain ⟨hframe, -⟩ := bcdRun_stored f true s n
      rw [← hu, hframe]
      exact hnormal
    rw [hstep]
    by_cases hlast : k = n
    · rw [hlast, destByte_writeByte_same]
    · rw [destByte_writeByte_other hunormal (by omega) (by omega) hlast, ← hu]
      exact ih (by omega) k (by omega)

/-! ### The instructions -/

theorem exec_add4s_eq (s : State) : exec .add4s s = bcdString bcdAdd true s := rfl
theorem exec_sub4s_eq (s : State) : exec .sub4s s = bcdString bcdSub true s := rfl
theorem exec_cmp4s_eq (s : State) : exec .cmp4s s = bcdString bcdSub false s := rfl

/-- A length of 0 or 255 digits is refused (R220, U7). -/
theorem bcdString_refused {s : State} (h : s.cl = 0 ∨ s.cl = 255) : bcdString f store s = .refused .bcdLength :=
  if_pos h

/-- AC, V, P and S are left undefined (R221). -/
theorem undefACVPS_statusDrawn (s : State) : StatusDrawn s s.undefAC.undefV.undefP.undefS :=
  (undefAC_statusDrawn s).trans <| (undefV_statusDrawn _).trans <| (undefP_statusDrawn _).trans (undefS_statusDrawn _)

section Length

variable {s} (hlow : 1 ≤ s.cl.toNat) (hhigh : s.cl.toNat ≤ 254)
include hlow hhigh

theorem bcdString_eq :
    bcdString f store s =
      .next (if (bcdRun f store s (bcdBytes s)).valid then
          let r := bcdRun f store s (bcdBytes s)
          ({ r.machine with psw := { r.machine.psw with cy := r.carry, z := r.zero } } : State)
        else
          (if store then (List.range (bcdBytes s)).foldl bcdFreeByte s
            else s).undefCY.undefZ).undefAC.undefV.undefP.undefS := by
  have hne : ¬ (s.cl = 0 ∨ s.cl = 255) := by
    rintro (h | h)
    · rw [h] at hlow
      exact absurd hlow (by decide)
    · rw [h] at hhigh
      exact absurd hhigh (by decide)
  exact if_neg hne

/-- With valid digits the loop runs over the string, and CY and Z are its carry and its zero flag (R221 to R223). -/
theorem bcdString_of_valid (h : (bcdRun f store s (bcdBytes s)).valid = true) :
    ∃ t, bcdString f store s = .next t ∧ StatusDrawn (bcdRun f store s (bcdBytes s)).machine t ∧
      t.psw.cy = (bcdRun f store s (bcdBytes s)).carry ∧ t.psw.z = (bcdRun f store s (bcdBytes s)).zero := by
  rw [bcdString_eq f store hlow hhigh, if_pos h]
  generalize bcdRun f store s (bcdBytes s) = r
  have hflags : StatusDrawn r.machine { r.machine with psw := { r.machine.psw with cy := r.carry, z := r.zero } } :=
    ⟨_, _, rfl, rfl, rfl, rfl, rfl⟩
  exact ⟨_, rfl, hflags.trans (undefACVPS_statusDrawn _), rfl, rfl⟩

/-- With an invalid digit the destination bytes, if the operation stores, CY and Z are undefined (R220 (g), U8). -/
theorem bcdString_of_invalid (h : ¬ (bcdRun f store s (bcdBytes s)).valid = true) :
    ∃ t, bcdString f store s = .next t ∧
      StatusDrawn (if store then (List.range (bcdBytes s)).foldl bcdFreeByte s else s) t := by
  rw [bcdString_eq f store hlow hhigh, if_neg h]
  generalize (if store then (List.range (bcdBytes s)).foldl bcdFreeByte s else s) = u
  exact ⟨_, rfl, (undefCY_statusDrawn u).trans <| (undefZ_statusDrawn _).trans (undefACVPS_statusDrawn _)⟩

/-- Any operation completes: it writes no more than the destination string, nothing where it does not store, and then
status flags. -/
theorem bcdString_completes :
    ∃ u t, bcdString f store s = .next t ∧ StringStored (bcdBytes s) s u ∧ (store = false → u = s) ∧
      StatusDrawn u t := by
  by_cases h : (bcdRun f store s (bcdBytes s)).valid = true
  · obtain ⟨t, he, hdrawn, -⟩ := bcdString_of_valid f store hlow hhigh h
    refine ⟨_, t, he, bcdRun_stored f store s _, fun hstore => ?_, hdrawn⟩
    rw [hstore, bcdRun_machine_of_compare]
  · obtain ⟨t, he, hdrawn⟩ := bcdString_of_invalid f store hlow hhigh h
    refine ⟨_, t, he, ?_, fun hstore => ?_, hdrawn⟩
    · cases store with
      | false => exact StringStored.refl _ s
      | true => exact bcdFreeBytes_stored s _
    · rw [hstore]
      rfl

/-- On valid digits an operation gives carry, zero flag and result of the two sequences, where the strings share no byte
or nothing is stored. -/
theorem bcdString_values (hd : DigitsOk s) (h : store = false ∨ s.NormalAddresses ∧ StringsApart s) :
    ∃ t, bcdString f store s = .next t ∧ t.psw.cy = carryInto f s.destByte s.sourceByte (bcdBytes s) ∧
      (t.psw.z = true ↔ decimalOf (resultByte f s.destByte s.sourceByte) (bcdBytes s) = 0) ∧
      StatusDrawn (bcdRun f store s (bcdBytes s)).machine t := by
  obtain ⟨hcarry, hzero, hvalid⟩ := bcdRun_flags f h hd (Nat.le_refl (bcdBytes s))
  obtain ⟨t, he, hdrawn, hcy, hz⟩ := bcdString_of_valid f store hlow hhigh hvalid
  exact ⟨t, he, hcy.trans hcarry, hz ▸ hzero, hdrawn⟩

end Length

/-- After the status flags the destination string has the value of its bytes as stored. -/
theorem decimal_of_stored {n : Nat} {s u t : State} (hu : StringStored n s u) (ht : StatusDrawn u t) :
    decimal t s.ds1 s.iy n = decimalOf u.destByte n := by
  obtain ⟨hframe, -⟩ := hu
  obtain ⟨c, m, l, rfl⟩ : ∃ c m l, u = { s with draws := c, mem := m, stores := l } := ⟨_, _, _, hframe⟩
  obtain ⟨g, c', rfl, -⟩ := ht
  exact decimal_eq_decimalOf _ s.ds1 s.iy n

/-- An operation that stores leaves the result in the destination string, where the strings share no byte. -/
theorem bcdString_result {s : State} (hlow : 1 ≤ s.cl.toNat) (hhigh : s.cl.toNat ≤ 254) (hd : DigitsOk s)
    (hnormal : s.NormalAddresses) (hapart : StringsApart s) :
    ∃ t, bcdString f true s = .next t ∧ t.psw.cy = carryInto f s.destByte s.sourceByte (bcdBytes s) ∧
      (t.psw.z = true ↔ decimalOf (resultByte f s.destByte s.sourceByte) (bcdBytes s) = 0) ∧
      decimal t s.ds1 s.iy (bcdBytes s) = decimalOf (resultByte f s.destByte s.sourceByte) (bcdBytes s) := by
  obtain ⟨t, he, hcy, hz, hdrawn⟩ := bcdString_values f true hlow hhigh hd (.inr ⟨hnormal, hapart⟩)
  refine ⟨t, he, hcy, hz, (decimal_of_stored (bcdRun_stored f true s _) hdrawn).trans (decimalOf_congr ?_)⟩
  exact bcdRun_destByte f hnormal hapart hd (Nat.le_refl _)

/-- The digits of both strings have their bytes' values below 100. -/
theorem stringByte_lt {s : State} (hd : DigitsOk s) :
    (∀ k, k < bcdBytes s → bcdValue (s.destByte k) < 100) ∧
      ∀ k, k < bcdBytes s → bcdValue (s.sourceByte k) < 100 :=
  ⟨fun k hk => bcdValue_lt_of_valid (hd k hk).2, fun k hk => bcdValue_lt_of_valid (hd k hk).1⟩

/-- The three instructions are one operation on strings, and CMP4S stores nothing (R221 to R223). -/
theorem exec_bcdString_eq {i : Instr} (h : i = .add4s ∨ i = .sub4s ∨ i = .cmp4s) (s : State) :
    ∃ f store, exec i s = bcdString f store s ∧ (i = .cmp4s → store = false) := by
  rcases h with rfl | rfl | rfl
  · exact ⟨_, _, exec_add4s_eq s, fun h => Instr.noConfusion h⟩
  · exact ⟨_, _, exec_sub4s_eq s, fun h => Instr.noConfusion h⟩
  · exact ⟨_, _, exec_cmp4s_eq s, fun _ => rfl⟩

/-- Settles O25: whatever the byte operation, the loop and the undefined bytes stay in the destination string. -/
theorem bcdStringsComplete : Obligations.BcdStringsComplete := by
  intro s i hi
  obtain ⟨f, store, hexec, hcmp⟩ := exec_bcdString_eq hi s
  rw [hexec]
  constructor
  · intro hlow hhigh
    obtain ⟨u, t, he, ⟨hframe, hread⟩, hsame, g, c, rfl, hcontrol⟩ := bcdString_completes f store hlow hhigh
    refine ⟨_, he, ?_, ?_, ?_, ?_⟩
    · rw [hframe] at hcontrol
      exact hcontrol
    · rw [hframe]
    · exact fun a ha => hread a fun k hk heq => ha ⟨k, hk, heq⟩
    · intro hi
      rw [hsame (hcmp hi)]
  · exact bcdString_refused f store

/-- Settles O26: borrow and difference of the two strings are those of their sequences of bytes. -/
theorem bcdSubtractionSubtractsDecimals : Obligations.BcdSubtractionSubtractsDecimals := by
  intro s hlow hhigh hd x y
  have hx : x = decimalOf s.destByte (bcdBytes s) := decimal_dest_eq s _
  have hy : y = decimalOf s.sourceByte (bcdBytes s) := decimal_source_eq s _
  obtain ⟨hdest, hsource⟩ := stringByte_lt hd
  obtain ⟨hborrow, hequal⟩ := decimalOf_sub_compare hdest hsource
  rw [hx, hy]
  constructor
  · obtain ⟨t, he, hcy, hz, g, c, ht, -⟩ := bcdString_values bcdSub false hlow hhigh hd (.inl rfl)
    rw [bcdRun_machine_of_compare] at ht
    exact ⟨t, he, hcy ▸ hborrow, hz.trans hequal, by rw [ht]⟩
  · intro hnormal hapart
    obtain ⟨t, he, hcy, hz, hresult⟩ := bcdString_result bcdSub hlow hhigh hd hnormal hapart
    refine ⟨t, he, ?_, hcy ▸ hborrow, hz.trans hequal⟩
    rw [hresult, hcy]
    exact decimalOf_sub hdest hsource

/-- Settles O27: carry and sum of the two strings are those of their sequences of bytes. -/
theorem bcdAddAddsDecimals : Obligations.BcdAddAddsDecimals := by
  intro s hlow hhigh hd hnormal hapart
  obtain ⟨hdest, hsource⟩ := stringByte_lt hd
  obtain ⟨t, he, hcy, hz, hresult⟩ := bcdString_result bcdAdd hlow hhigh hd hnormal hapart
  refine ⟨t, he, ?_, ?_⟩
  · rw [hresult, hcy, decimal_dest_eq, decimal_source_eq]
    exact decimalOf_add hdest hsource
  · rw [hresult]
    exact hz

end Sys2Proof.Machine
end

section
/-! PROOFS. The shifts and rotates, the bit instructions and the flag instructions (45_logic_bit_shift.md): O18, O19,
O20 and O21. A rotation through CY of `n` bits is a rotation of the `n + 1` bits with CY on top. -/

namespace Sys2Proof.Machine

/-! ### One position more -/

theorem rotateLeft_zero {n : Nat} (x : BitVec n) : x.rotateLeft 0 = x := by
  rw [BitVec.rotateLeft_def, Nat.zero_mod, Nat.sub_zero, BitVec.shiftLeft_zero,
    BitVec.ushiftRight_eq_zero (Nat.le_refl n), BitVec.or_zero]

theorem rotateRight_zero {n : Nat} (x : BitVec n) : x.rotateRight 0 = x := by
  rw [BitVec.rotateRight_def, Nat.zero_mod, Nat.sub_zero, BitVec.ushiftRight_zero,
    BitVec.shiftLeft_eq_zero (Nat.le_refl n), BitVec.or_zero]

section Rotation

variable {n : Nat} (hn : 1 < n)
include hn

/-- One more position either stays within the width or comes round to position 0. -/
theorem succ_mod_eq_ite (k : Nat) : (k + 1) % n = if n ≤ k % n + 1 then k % n + 1 - n else k % n + 1 := by
  rw [Nat.add_mod_eq_ite, Nat.mod_eq_of_lt hn]

/-- A rotation to the left by one more position moves the top bit round to bit 0. -/
theorem rotateLeft_succ (x : BitVec n) (k : Nat) :
    x.rotateLeft (k + 1) = x.rotateLeft k <<< 1 ||| bit n (x.rotateLeft k).msb := by
  have hlt : k % n < n := Nat.mod_lt k (Nat.zero_lt_of_lt hn)
  apply BitVec.eq_of_getLsbD_eq
  intro i hi
  rw [BitVec.getLsbD_or, BitVec.getLsbD_shiftLeft, getLsbD_bit, BitVec.msb_eq_getLsbD_last]
  simp only [BitVec.getLsbD_rotateLeft, succ_mod_eq_ite hn]
  cases i with
  | zero => grind
  | succ j => grind

/-- A rotation to the right by one more position moves bit 0 round to the top bit. -/
theorem rotateRight_succ (x : BitVec n) (k : Nat) :
    x.rotateRight (k + 1) = x.rotateRight k >>> 1 ||| bit n ((x.rotateRight k).getLsbD 0) <<< (n - 1) := by
  have hlt : k % n < n := Nat.mod_lt k (Nat.zero_lt_of_lt hn)
  apply BitVec.eq_of_getLsbD_eq
  intro i hi
  rw [BitVec.getLsbD_or, BitVec.getLsbD_ushiftRight, BitVec.getLsbD_shiftLeft, getLsbD_bit]
  simp only [BitVec.getLsbD_rotateRight, succ_mod_eq_ite hn]
  by_cases htop : i = n - 1
  · grind
  · grind

end Rotation

section Carry

variable {n : Nat}

/-- An operand with CY on top, as one string of bits: what ROLC and RORC rotate. -/
def withCarry (q : BitVec n × Bool) : BitVec (n + 1) := BitVec.cons q.2 q.1

variable (hn : 0 < n) (q : BitVec n × Bool)
include hn

/-- One step of ROLC moves every bit one position to the left, the top one, CY, round to bit 0 (R281). -/
theorem withCarry_rolcStep :
    withCarry (rolcStep n q) = withCarry q <<< 1 ||| bit (n + 1) (withCarry q).msb := by
  apply BitVec.eq_of_getLsbD_eq
  intro i hi
  simp only [withCarry, rolcStep, BitVec.msb_cons, BitVec.getLsbD_cons, BitVec.getLsbD_or, BitVec.getLsbD_shiftLeft,
    getLsbD_bit, BitVec.msb_eq_getLsbD_last q.1]
  by_cases htop : i = n
  · grind
  · grind

/-- One step of RORC moves every bit one position to the right, bit 0 round to the top one, CY (R282). -/
theorem withCarry_rorcStep : withCarry (rorcStep n q) =
    withCarry q >>> 1 ||| bit (n + 1) ((withCarry q).getLsbD 0) <<< (n + 1 - 1) := by
  apply BitVec.eq_of_getLsbD_eq
  intro i hi
  simp only [withCarry, rorcStep, BitVec.getLsbD_cons, BitVec.getLsbD_or, BitVec.getLsbD_ushiftRight,
    BitVec.getLsbD_shiftLeft, getLsbD_bit]
  by_cases htop : i = n
  · grind
  · grind

end Carry

/-! ### The steps of each operation -/

/-- The one-bit step of each operation (R276 to R282). -/
def ShiftOp.step : ShiftOp → ShiftStep
  | .rol => rolStep
  | .ror => rorStep
  | .rolc => rolcStep
  | .rorc => rorcStep
  | .shl => shlStep
  | .shr => shrStep
  | .shra => shraStep

/-- Which flags besides CY and V each operation writes (R274, R275). -/
def ShiftOp.kind : ShiftOp → ShiftKind
  | .rol | .ror | .rolc | .rorc => .rotate
  | .shl | .shr | .shra => .shift

theorem exec_oneForm_eq (o : ShiftOp) (w : Width) (dst : RM) (s : State) :
    exec (oneForm o w dst) s = .next (shiftOne o.step o.kind w dst s) := by
  cases o <;> rfl

theorem exec_clForm_eq (o : ShiftOp) (w : Width) (dst : RM) (s : State) :
    exec (clForm o w dst) s = .next (shiftMany o.step o.kind w dst s.cl s) := by
  cases o <;> rfl

theorem exec_immForm_eq (o : ShiftOp) (w : Width) (dst : RM) (count : Byte) (s : State) :
    exec (immForm o w dst count) s = .next (shiftMany o.step o.kind w dst count s) := by
  cases o <;> rfl

section Iterate

variable {n : Nat} {f : ShiftStep} (k : Nat) {p : BitVec n × Bool}

/-- What is so after `k` steps, if it is so before the first and each step takes it from one count to the next. -/
theorem iterateStep_eq {β : Type} (view : BitVec n × Bool → β) (g : Nat → β) (hzero : view p = g 0)
    (hsucc : ∀ k q, view q = g k → view (f n q) = g (k + 1)) : view (iterateStep f k p) = g k := by
  induction k with
  | zero => exact hzero
  | succ k ih => exact hsucc k _ ih

variable (p)

theorem iterate_shlStep : (iterateStep shlStep k p).1 = p.1 <<< k :=
  iterateStep_eq k Prod.fst (p.1 <<< ·) (BitVec.shiftLeft_zero p.1).symm fun k q hq => by
    rw [BitVec.shiftLeft_add, ← hq]; rfl

theorem iterate_shrStep : (iterateStep shrStep k p).1 = p.1 >>> k :=
  iterateStep_eq k Prod.fst (p.1 >>> ·) (BitVec.ushiftRight_zero p.1).symm fun k q hq => by
    rw [BitVec.shiftRight_add, ← hq]; rfl

theorem iterate_shraStep : (iterateStep shraStep k p).1 = p.1.sshiftRight k :=
  iterateStep_eq k Prod.fst p.1.sshiftRight BitVec.sshiftRight_zero.symm fun k q hq => by
    rw [BitVec.sshiftRight_add, ← hq]; rfl

theorem iterate_rolStep (hn : 1 < n) : (iterateStep rolStep k p).1 = p.1.rotateLeft k :=
  iterateStep_eq k Prod.fst p.1.rotateLeft (rotateLeft_zero _).symm fun k q hq => by
    rw [rotateLeft_succ hn, ← hq]; rfl

theorem iterate_rorStep (hn : 1 < n) : (iterateStep rorStep k p).1 = p.1.rotateRight k :=
  iterateStep_eq k Prod.fst p.1.rotateRight (rotateRight_zero _).symm fun k q hq => by
    rw [rotateRight_succ hn, ← hq]; rfl

theorem iterate_rolcStep (hn : 0 < n) : withCarry (iterateStep rolcStep k p) = (withCarry p).rotateLeft k :=
  iterateStep_eq k withCarry (withCarry p).rotateLeft (rotateLeft_zero _).symm fun k q hq => by
    rw [rotateLeft_succ (Nat.succ_lt_succ hn), ← hq]
    exact withCarry_rolcStep hn q

theorem iterate_rorcStep (hn : 0 < n) : withCarry (iterateStep rorcStep k p) = (withCarry p).rotateRight k :=
  iterateStep_eq k withCarry (withCarry p).rotateRight (rotateRight_zero _).symm fun k q hq => by
    rw [rotateRight_succ (Nat.succ_lt_succ hn), ← hq]
    exact withCarry_rorcStep hn q

end Iterate

/-! ### The bit moved out last -/

section LastBit

variable {n : Nat} (d : BitVec n) (k : Nat)

/-- The top bit after `k` steps to the left was at `n - (k + 1)`, or came in as 0. -/
theorem msb_shiftLeft_eq (hn : 0 < n) : (d <<< k).msb = (decide (k + 1 ≤ n) && d.getLsbD (n - (k + 1))) := by
  rw [BitVec.msb_eq_getLsbD_last, BitVec.getLsbD_shiftLeft]
  grind

/-- Bit 0 after `k` arithmetic steps to the right was at `k`, or is a copy of the top bit. -/
theorem getLsbD_sshiftRight_zero (hn : 0 < n) : (d.sshiftRight k).getLsbD 0 = d.getLsbD (min k (n - 1)) := by
  rw [BitVec.getLsbD_sshiftRight, BitVec.msb_eq_getLsbD_last]
  grind

/-- A step to the left that brings in `c` leaves it in bit 0. -/
theorem getLsbD_shiftLeft_or_bit (c : Bool) (hn : 0 < n) : (d <<< 1 ||| bit n c).getLsbD 0 = c := by
  rw [BitVec.getLsbD_or, BitVec.getLsbD_shiftLeft, getLsbD_bit]
  simp only [hn, Nat.one_pos, and_self, decide_true, Bool.not_true, Bool.true_and, Bool.false_and, Bool.false_or]

/-- A step to the right that brings in `c` leaves it in the top bit. -/
theorem getLsbD_ushiftRight_or_bit (c : Bool) (hn : 0 < n) :
    (d >>> 1 ||| bit n c <<< (n - 1)).getLsbD (n - 1) = c := by
  have hout : d.getLsbD (1 + (n - 1)) = false := BitVec.getLsbD_of_ge d _ (by omega)
  have htop : n - 1 < n := Nat.sub_lt hn Nat.one_pos
  rw [BitVec.getLsbD_or, BitVec.getLsbD_ushiftRight, BitVec.getLsbD_shiftLeft, getLsbD_bit, hout]
  simp only [htop, hn, Nat.lt_irrefl, Nat.sub_self, and_self, decide_true, decide_false, Bool.not_false, Bool.true_and,
    Bool.false_or]

end LastBit

/-- Any positive number of steps gives the result and the carry of the operation (R271, R276 to R282). -/
theorem iterateStep_shiftResult {n : Nat} (hn : 1 < n) (o : ShiftOp) (k : Nat) (d : BitVec n) (c : Bool) :
    ShiftResult o (k + 1) d c (iterateStep o.step (k + 1) (d, c)).1 (iterateStep o.step (k + 1) (d, c)).2 := by
  have hpos : 0 < n := Nat.zero_lt_of_lt hn
  cases o with
  | rol => exact ⟨iterate_rolStep (k + 1) (d, c) hn, (getLsbD_shiftLeft_or_bit _ _ hpos).symm⟩
  | ror => exact ⟨iterate_rorStep (k + 1) (d, c) hn, (getLsbD_ushiftRight_or_bit _ _ hpos).symm⟩
  | rolc => exact iterate_rolcStep (k + 1) (d, c) hpos
  | rorc => exact iterate_rorcStep (k + 1) (d, c) hpos
  | shl =>
    have hcarry : (iterateStep shlStep (k + 1) (d, c)).2 = (iterateStep shlStep k (d, c)).1.msb := rfl
    constructor
    · rw [ShiftOp.step, iterate_shlStep, BitVec.toNat_shiftLeft, Nat.shiftLeft_eq]
    · rw [ShiftOp.step, hcarry, iterate_shlStep, msb_shiftLeft_eq d k hpos]
  | shr =>
    have hcarry : (iterateStep shrStep (k + 1) (d, c)).2 = (iterateStep shrStep k (d, c)).1.getLsbD 0 := rfl
    constructor
    · rw [ShiftOp.step, iterate_shrStep, BitVec.toNat_ushiftRight, Nat.shiftRight_eq_div_pow]
    · rw [ShiftOp.step, hcarry, iterate_shrStep, BitVec.getLsbD_ushiftRight, Nat.add_zero, Nat.add_sub_cancel]
  | shra =>
    have hcarry : (iterateStep shraStep (k + 1) (d, c)).2 = (iterateStep shraStep k (d, c)).1.getLsbD 0 := rfl
    constructor
    · rw [ShiftOp.step, iterate_shraStep, BitVec.toInt_sshiftRight, Int.shiftRight_eq_div_pow, Int.natCast_pow]
      rfl
    · rw [ShiftOp.step, hcarry, iterate_shraStep, getLsbD_sshiftRight_zero d k hpos, Nat.add_sub_cancel]

/-! ### The flags of a shift or rotate -/

theorem shiftFlags_shift {n : Nat} (r : BitVec n × Bool) (s : State) :
    shiftFlags .shift r s =
      { s with
        psw := { setSZP s.psw r.1 with cy := r.2, ac := Config.freeBit s.draws }, draws := s.draws + 1 } := rfl

theorem shiftFlags_rotate {n : Nat} (r : BitVec n × Bool) (s : State) :
    shiftFlags .rotate r s = { s with psw := { s.psw with cy := r.2 } } := rfl

/-- S, Z and P are of the result whatever the other flags are. -/
theorem SignZeroParity.congr {n : Nat} {r : BitVec n} {f g : Psw} (h : SignZeroParity r f) (hs : g.s = f.s)
    (hz : g.z = f.z) (hp : g.p = f.p) : SignZeroParity r g := by
  rwa [SignZeroParity, hs, hz, hp]

/-- The flags of one step or more: CY is the carry, a shift writes S, Z and P of the result too, and V may be written
after them (R274, R275). -/
theorem shiftFlags_spec {n : Nat} (o : ShiftOp) (r : BitVec n × Bool) (s : State) :
    ∃ f k, shiftFlags o.kind r s = { s with psw := f, draws := k } ∧ f.cy = r.2 ∧
      ∀ v, ShiftFlags o r.1 s.psw { f with v := v } := by
  have hszp : SignZeroParity r.1 (setSZP s.psw r.1) := setSZP_signZeroParity s.psw r.1
  cases o with
  | shl | shr | shra =>
    exact ⟨_, _, shiftFlags_shift r s, rfl, fun _ => ⟨⟨rfl, rfl, rfl, rfl⟩, hszp.congr rfl rfl rfl⟩⟩
  | rol | ror | rolc | rorc =>
    exact ⟨_, _, shiftFlags_rotate r s, rfl, fun _ => ⟨⟨rfl, rfl, rfl, rfl⟩, rfl, rfl, rfl, rfl⟩⟩

/-- A count of 0 opens status flags only, for a rotate CY and V alone (R273). -/
theorem zeroCountFlags_spec (k : ShiftKind) (s : State) :
    ∃ f n, zeroCountFlags k s = { s with psw := f, draws := n } ∧ SameControlFlags s.psw f ∧
      (k = .rotate → f.ac = s.psw.ac ∧ f.p = s.psw.p ∧ f.s = s.psw.s ∧ f.z = s.psw.z) := by
  cases k with
  | shift =>
    obtain ⟨f, n, hdrawn, hcontrol⟩ := undefStatus_statusDrawn s
    exact ⟨f, n, hdrawn, hcontrol, fun h => ShiftKind.noConfusion h⟩
  | rotate => exact ⟨_, _, rfl, ⟨rfl, rfl, rfl, rfl⟩, fun _ => ⟨rfl, rfl, rfl, rfl⟩⟩

/-! ### Shifts and rotates -/

section Shift

variable (o : ShiftOp) (w : Width) (dst : RM) (s : State)

/-- The form with count 1 writes the operand of one step after the flags, V among them (R272). -/
theorem shiftOne_eq :
    let r := iterateStep o.step 1 (s.readRM w dst, s.psw.cy)
    ∃ f n, shiftOne o.step o.kind w dst s = ({ s with psw := f, draws := n } : State).writeRM w dst r.1 ∧
      f.cy = r.2 ∧ f.v = msbChanged (s.readRM w dst) r.1 ∧ ShiftFlags o r.1 s.psw f := by
  intro r
  obtain ⟨f, n, hflags, hcy, hother⟩ := shiftFlags_spec o r s
  refine ⟨{ f with v := msbChanged (s.readRM w dst) r.1 }, n, ?_, hcy, rfl, hother _⟩
  have hstep : o.step w.bits (s.readRM w dst, s.psw.cy) = r := rfl
  simp only [shiftOne, hstep, hflags]

/-- The form with a positive count writes the operand of that many steps after the flags, V open (R271, R272). -/
theorem shiftMany_eq {count : Byte} (h : count ≠ 0) :
    let r := iterateStep o.step count.toNat (s.readRM w dst, s.psw.cy)
    ∃ f n, shiftMany o.step o.kind w dst count s =
        ({ s with psw := f, draws := n } : State).writeRM w dst r.1 ∧
      f.cy = r.2 ∧ ShiftFlags o r.1 s.psw f := by
  intro r
  obtain ⟨f, n, hflags, hcy, hother⟩ := shiftFlags_spec o r s
  refine ⟨{ f with v := Config.freeBit n }, n + 1, ?_, hcy, hother _⟩
  simp only [shiftMany, if_neg h]
  rw [hflags]
  rfl

/-- The form with count 0 writes the operand itself back after the open flags (R273). -/
theorem shiftMany_zero :
    shiftMany o.step o.kind w dst 0 s = (zeroCountFlags o.kind s).writeRM w dst (s.readRM w dst) := rfl

end Shift

theorem one_lt_width_bits (w : Width) : 1 < w.bits := by cases w <;> decide

/-- V of a shift or rotate by 1 tells that the top bit changed (R272). -/
theorem msbChanged_iff {n : Nat} (d r : BitVec n) :
    msbChanged d r = true ↔ r.getLsbD (n - 1) ≠ d.getLsbD (n - 1) := by
  rw [msbChanged, bne_iff_ne, BitVec.msb_eq_getLsbD_last, BitVec.msb_eq_getLsbD_last]

/-- Settles O18: the form with count 1 is one step and one write after the flags. -/
theorem shiftByOneCompletes : Obligations.ShiftByOneCompletes := by
  intro s o w dst
  obtain ⟨f, n, he, hcy, hv, hflags⟩ := shiftOne_eq o w dst s
  obtain ⟨hwrites, hpsw, -⟩ := State.writeRM_writes s f n w dst
    (iterateStep o.step 1 (s.readRM w dst, s.psw.cy)).1
  refine ⟨_, _, (exec_oneForm_eq o w dst s).trans (congrArg _ he), ?_, ?_, ?_, hwrites⟩
  · rw [hpsw, hcy]
    exact iterateStep_shiftResult (one_lt_width_bits w) o 0 _ _
  · rw [hpsw]
    exact hflags
  · rw [hpsw, hv]
    exact msbChanged_iff _ _

/-- Both forms with a count are the one operation on that count. -/
theorem exec_countForm_eq {o : ShiftOp} {w : Width} {dst : RM} {i : Instr} {k : Byte} {s : State}
    (h : i = clForm o w dst ∧ k = s.cl ∨ i = immForm o w dst k) :
    exec i s = .next (shiftMany o.step o.kind w dst k s) := by
  obtain ⟨rfl, rfl⟩ | rfl := h
  · exact exec_clForm_eq o w dst s
  · exact exec_immForm_eq o w dst k s

/-- Settles O19: a positive count is that many steps and one write after the flags, count 0 a write of the operand
itself. -/
theorem shiftByCountCompletes : Obligations.ShiftByCountCompletes := by
  intro s o w dst i k hi
  have hexec := exec_countForm_eq hi
  constructor
  · intro hk
    obtain ⟨j, hj⟩ := Nat.exists_eq_succ_of_ne_zero fun h => hk (BitVec.eq_of_toNat_eq h)
    obtain ⟨f, n, he, hcy, hflags⟩ := shiftMany_eq o w dst s hk
    obtain ⟨hwrites, hpsw, -⟩ := State.writeRM_writes s f n w dst
      (iterateStep o.step k.toNat (s.readRM w dst, s.psw.cy)).1
    refine ⟨_, _, hexec.trans (congrArg _ he), ?_, ?_, hwrites⟩
    · rw [hpsw, hcy, hj]
      exact iterateStep_shiftResult (one_lt_width_bits w) o j _ _
    · rw [hpsw]
      exact hflags
  · rintro rfl
    obtain ⟨f, n, he, hcontrol, hrotate⟩ := zeroCountFlags_spec o.kind s
    obtain ⟨hwrites, hpsw, -⟩ := State.writeRM_writes s f n w dst (s.readRM w dst)
    rw [shiftMany_zero, he] at hexec
    refine ⟨_, hexec, ?_, hwrites, ?_⟩
    · rw [hpsw]
      exact hcontrol
    · rw [hpsw]
      cases o with
      | shl | shr | shra => trivial
      | rol | ror | rolc | rorc => exact hrotate rfl

/-! ### One bit of an operand (R260) -/

/-- The mask of a bit number within the width has that bit alone. -/
theorem getLsbD_bitMask {n k : Nat} (hk : k < n) (j : Nat) : (bitMask n k).getLsbD j = decide (j = k) := by
  refine (BitVec.getLsbD_twoPow k j).trans ?_
  rw [decide_eq_true hk, Bool.true_and, decide_eq_decide]
  exact eq_comm

/-- The function `g` on operands acts on the numbered bit by `f`, on no other. -/
def ActsOnBit (g : (n : Nat) → BitVec n → Nat → BitVec n) (f : Bool → Bool) : Prop :=
  ∀ {n k : Nat} (d : BitVec n), k < n → ∀ j, j < n →
    (g n d k).getLsbD j = if j = k then f (d.getLsbD j) else d.getLsbD j

theorem clearBit_actsOnBit : ActsOnBit clearBit fun _ => false := by
  intro n k d hk j hj
  rw [clearBit, BitVec.getLsbD_and, BitVec.getLsbD_not, getLsbD_bitMask hk, decide_eq_true hj]
  by_cases h : j = k
  · simp only [h, decide_true, if_true, Bool.not_true, Bool.and_false]
  · simp only [h, decide_false, if_false, Bool.not_false, Bool.and_true]

theorem setBit_actsOnBit : ActsOnBit setBit fun _ => true := by
  intro n k d hk j hj
  rw [setBit, BitVec.getLsbD_or, getLsbD_bitMask hk]
  by_cases h : j = k
  · simp only [h, decide_true, if_true, Bool.or_true]
  · simp only [h, decide_false, if_false, Bool.or_false]

theorem invertBit_actsOnBit : ActsOnBit invertBit fun b => !b := by
  intro n k d hk j hj
  rw [invertBit, BitVec.getLsbD_xor, getLsbD_bitMask hk]
  by_cases h : j = k
  · simp only [h, decide_true, if_true, Bool.xor_true]
  · simp only [h, decide_false, if_false, Bool.xor_false]

/-- Every form of CLR1, SET1 and NOT1 is the one write of its operand with the numbered bit acted on (R262 to R264). -/
theorem BitForm.exec_eq {s : State} {i : Instr} {f : Bool → Bool} {w : Width} {dst : RM} {k : Byte}
    (h : BitForm s i f w dst k) : ∃ g, exec i s = .next (bitRm g w dst k s) ∧ ActsOnBit g f := by
  cases h with
  | clr1Cl | clr1Imm => exact ⟨_, rfl, clearBit_actsOnBit⟩
  | set1Cl | set1Imm => exact ⟨_, rfl, setBit_actsOnBit⟩
  | not1Cl | not1Imm => exact ⟨_, rfl, invertBit_actsOnBit⟩

/-- Both forms of TEST1 are the one look at the numbered bit (R261). -/
theorem exec_test1_eq {s : State} {i : Instr} {w : Width} {dst : RM} {k : Byte}
    (h : i = .test1Cl w dst ∧ k = s.cl ∨ i = .test1Imm w dst k) : exec i s = .next (testBit w dst k s) := by
  obtain ⟨rfl, rfl⟩ | rfl := h
  · rfl
  · rfl

/-- Settles O20: CLR1, SET1 and NOT1 are one write to the operand, TEST1 writes flags alone. -/
theorem bitInstructionsActOnOneBit : Obligations.BitInstructionsActOnOneBit := by
  intro s i f w dst k
  constructor
  · intro h
    obtain ⟨g, he, hbit⟩ := h.exec_eq
    obtain ⟨hwrites, hpsw, hdraws⟩ := writeRM_complete s w dst (g w.bits (s.readRM w dst) (bitNumber w k))
    exact ⟨_, _, he, hpsw, hdraws, hwrites, hbit _ (Nat.mod_lt _ (width_bits_pos w))⟩
  · intro h
    exact ⟨_, exec_test1_eq h, rfl, rfl, rfl, ⟨rfl, rfl, rfl, rfl⟩, rfl⟩

/-! ### One flag (R265 to R269, R360) -/

/-- Settles O21: each code is the encoding of its instruction, whose meaning is one update of PSW. -/
theorem flagInstructionsWriteOneFlag : Obligations.FlagInstructionsWriteOneFlag := by
  intro s c rest
  refine ⟨fun hc => ?_, rfl, rfl, rfl, rfl, rfl, rfl⟩
  cases c with
  | emulation => exact absurd rfl hc
  | emuNative | xaNative =>
    exact ⟨decodeReadsBackEncode _ .not1Cy rest rfl, decodeReadsBackEncode _ .clr1Cy rest rfl,
      decodeReadsBackEncode _ .set1Cy rest rfl, decodeReadsBackEncode _ .clr1Dir rest rfl,
      decodeReadsBackEncode _ .set1Dir rest rfl, decodeReadsBackEncode _ .di rest rfl⟩

end Sys2Proof.Machine
end

section
/-! PROOFS. The conditional branches, RET and BR (46_stack_control_transfer.md): O42 and O43. -/

namespace Sys2Proof.Machine

/-! ### The conditional branches (R316 to R336) -/

/-- A branch with its condition satisfied goes to `nextPC` plus the displacement (R316). -/
theorem branchIf_true (d : Byte) (s : State) :
    branchIf true d s = { s with pc := s.pc + d.signExtend 16, stores := [] } := rfl

/-- A branch with its condition not satisfied does nothing (R316). -/
theorem branchIf_false (d : Byte) (s : State) : branchIf false d s = s := rfl

/-- Each branch on the flags or on CW = 0 is `branchIf` of the condition of its rule (R317 to R333). -/
theorem CondForm.exec_eq {s : State} {i : Instr} {d : Byte} {c : Prop} (h : CondForm s i d c) :
    ∃ b, exec i s = .next (branchIf b d s) ∧ (b = true ↔ c) := by
  cases h with
  | bv | bc | be | bn | bpe => exact ⟨_, rfl, .rfl⟩
  | bnv | bnc | bne | bp | bpo => exact ⟨_, rfl, iff_of_eq (Bool.not_eq_true' _)⟩
  | bnh => exact ⟨_, rfl, Bool.or_eq_true_iff⟩
  | bh => exact ⟨_, rfl, by rw [Bool.not_eq_true', Bool.or_eq_false_iff]⟩
  | blt => exact ⟨_, rfl, bne_iff_ne⟩
  | bge | bcwz => exact ⟨_, rfl, beq_iff_eq⟩
  | ble => exact ⟨_, rfl, by rw [Bool.or_eq_true_iff, bne_iff_ne]⟩
  | bgt => exact ⟨_, rfl, by rw [Bool.not_eq_true', Bool.or_eq_false_iff, bne_eq_false_iff_eq]⟩

/-- CW counted down is not 0 exactly when it was not 1 (R334). -/
theorem countDown_cw_ne_zero_iff (s : State) : ((countDown s).cw != 0) = true ↔ s.cw ≠ 1 := by
  rw [bne_iff_ne]
  exact not_congr sub_eq_zero

/-- Each loop branch counts CW down and is `branchIf` of CW ≠ 0 and the condition of its rule (R334 to R336). -/
theorem LoopForm.exec_eq {s : State} {i : Instr} {d : Byte} {c : Prop} (h : LoopForm s i d c) :
    ∃ b, exec i s = .next (branchIf b d (countDown s)) ∧ (b = true ↔ s.cw ≠ 1 ∧ c) := by
  have hcw := countDown_cw_ne_zero_iff s
  cases h with
  | dbnz => exact ⟨_, rfl, hcw.trans (iff_of_eq (and_true _)).symm⟩
  | dbnze => exact ⟨_, rfl, Bool.and_eq_true_iff.trans (and_congr_left' hcw)⟩
  | dbnzne => exact ⟨_, rfl, Bool.and_eq_true_iff.trans (and_congr hcw (iff_of_eq (Bool.not_eq_true' _)))⟩

/-- What a branch does, by a proposition that its condition decides. -/
theorem branchIf_of_iff {b : Bool} {c : Prop} (h : b = true ↔ c) (d : Byte) (s : State) :
    (c → branchIf b d s = { s with pc := s.pc + d.signExtend 16, stores := [] }) ∧ (¬ c → branchIf b d s = s) := by
  refine ⟨fun hc => ?_, fun hc => ?_⟩
  · rw [h.mpr hc, branchIf_true]
  · rw [Bool.eq_false_iff.mpr (mt h.mp hc), branchIf_false]

/-- Settles O43: every form is one `branchIf`, the loop branches after counting CW down. -/
theorem conditionalBranchesFollowTheirCondition : Obligations.ConditionalBranchesFollowTheirCondition := by
  intro s i d c
  refine ⟨fun h => ?_, fun h => ?_⟩
  · obtain ⟨b, he, hb⟩ := h.exec_eq
    obtain ⟨htaken, hnot⟩ := branchIf_of_iff hb d s
    exact ⟨fun hc => by rw [he, htaken hc], fun hc => by rw [he, hnot hc]⟩
  · obtain ⟨b, he, hb⟩ := h.exec_eq
    obtain ⟨htaken, hnot⟩ := branchIf_of_iff hb d (countDown s)
    exact ⟨fun hc => by rw [he, htaken hc]; rfl, fun hc => by rw [he, hnot hc]; rfl⟩

/-! ### RET and BR (R306 to R315) -/

/-- A return within the segment: PC is the word at SS:SP (R306, R307). -/
theorem returnNear_eq (n : Word) (s : State) :
    returnNear n s = { s with pc := s.readWord s.ss s.sp, sp := s.sp + (2 + n), stores := [] } := by
  rw [← BitVec.add_assoc]
  rfl

/-- A return to another segment: PC and PS are the two words from SS:SP (R308, R309). -/
theorem returnFar_eq (n : Word) (s : State) :
    returnFar n s =
      { s with
        ps := s.readWord s.ss (s.sp + 2), pc := s.readWord s.ss s.sp, sp := s.sp + (4 + n), stores := [] } := by
  have hsp : s.sp + (4 + n) = s.sp + 2 + 2 + n := by bv_omega
  rw [hsp]
  rfl

/-- Every form of RET loads PC and PS and moves SP (R306 to R309). -/
theorem ReturnForm.exec_eq {s : State} {i : Instr} {ps pc n : Word} (h : ReturnForm s i ps pc n) :
    exec i s = .next { s with ps := ps, pc := pc, sp := s.sp + n, stores := [] } := by
  cases h with
  | near => exact congrArg _ (returnNear_eq 0 s)
  | nearPop v => exact congrArg _ (returnNear_eq v s)
  | far => exact congrArg _ (returnFar_eq 0 s)
  | farPop v => exact congrArg _ (returnFar_eq v s)

/-- Every form of BR loads PC and PS (R310 to R315). -/
theorem BranchForm.exec_eq {s : State} {i : Instr} {ps pc : Word} (h : BranchForm s i ps pc) :
    exec i s = .next { s with ps := ps, pc := pc, stores := [] } := by
  cases h with
  | near | short | regptr | memptr16 | far | memptr32 => rfl

/-- Settles O42: form by form, the state after is the one the rule writes. -/
theorem returnsAndBranchesGoToTheirTarget : Obligations.ReturnsAndBranchesGoToTheirTarget :=
  fun _ _ _ _ _ => ⟨ReturnForm.exec_eq, BranchForm.exec_eq⟩

end Sys2Proof.Machine
end

section
/-! PROOFS. Words pushed one after the other, PUSH, POP and CALL (46_stack_control_transfer.md): O37, O38, O39 and
O41. -/

namespace Sys2Proof.Machine

/-! ### Words on the stack

`Pushed` speaks of memory alone; an instruction that pushes several words also has SP below the words it has pushed so
far and has written none of what addresses are made of. -/

/-- Only SP, BP, PS, memory and the record of stores may differ. -/
abbrev StackFrame (s t : State) : Prop :=
  t = { s with sp := t.sp, bp := t.bp, ps := t.ps, mem := t.mem, stores := t.stores }

theorem StackFrame.trans {s t u : State} (h : StackFrame s t) (h' : StackFrame t u) : StackFrame s u :=
  Eq.trans h' (by rw [h])

/-- From `s` to `t` these words have been pushed, SP is below them, and only the fields of `StackFrame` are written. -/
structure Stacked (words : List Word) (s t : State) : Prop where
  pushed : Pushed words s t
  sp : t.sp = s.sp - BitVec.ofNat 16 (2 * words.length)
  frame : StackFrame s t

namespace Stacked

theorem nil (s : State) : Stacked [] s s := ⟨State.pushed_nil s rfl, by simp, rfl⟩

section

variable {words : List Word} {s t : State}

theorem ss (h : Stacked words s t) : t.ss = s.ss := by rw [h.frame]

theorem cls (h : Stacked words s t) : t.cls = s.cls := by rw [h.frame]

theorem xam (h : Stacked words s t) : t.xam = s.xam := by rw [h.frame]

/-- Where BP is as it was, only SP, PS, memory and the record of stores have been written. -/
theorem frame_of_bp (h : Stacked words s t) (hbp : t.bp = s.bp) :
    t = { s with
      sp := s.sp - BitVec.ofNat 16 (2 * words.length), ps := t.ps, mem := t.mem, stores := t.stores } :=
  Eq.trans h.frame (by rw [h.sp, hbp])

/-- One more word pushed (R290). -/
theorem push16 (h : Stacked words s t) (hn : words.length < 2 ^ 14) (v : Word) :
    Stacked (words ++ [v]) s (t.push16 v) where
  pushed := State.push16_pushed h.pushed hn h.sp h.ss h.cls h.xam v
  sp := by rw [State.push16_sp, h.sp, State.stack_offset, List.length_append, List.length_singleton]
  frame := h.frame.trans (State.push16_eq t v)

/-- BP and PS take no part in a push. -/
theorem setBpPs (h : Stacked words s t) (bp ps : Word) : Stacked words s { t with bp := bp, ps := ps } where
  pushed := State.pushed_congr h.pushed rfl rfl rfl
  sp := h.sp
  frame := h.frame.trans rfl

/-- Several words pushed one after the other (R290). -/
theorem foldl (h : Stacked words s t) (later : List Word) (hn : words.length + later.length ≤ 2 ^ 14) :
    Stacked (words ++ later) s (later.foldl State.push16 t) := by
  induction later generalizing words t with
  | nil => simpa using h
  | cons v later ih =>
    rw [List.length_cons] at hn
    have := ih (h.push16 (by omega) v) (by rw [List.length_append, List.length_singleton]; omega)
    rwa [List.append_assoc] at this

end

end Stacked

/-! ### PUSH (R290 to R297) -/

/-- A register read after SP is decremented: SP has its new value (R293). -/
theorem reg16_setSp (s : State) (v : Word) (r : Reg) :
    ({ s with sp := v } : State).reg16 r = if r = .sp then v else s.reg16 r := by
  cases r <;> rfl

/-- Every form of PUSH of one word is one push (R292 to R296). -/
theorem PushForm.exec_eq {s : State} {i : Instr} {v : Word} (h : PushForm s i v) : exec i s = .next (s.push16 v) := by
  cases h with
  | mem | sreg | psw | imm16 | imm8 => rfl
  | reg r =>
    rw [← reg16_setSp]
    rfl

/-- Settles O37: every form is one `push16`. -/
theorem pushStoresOneWord : Obligations.PushStoresOneWord :=
  fun s _ v h => ⟨_, h.exec_eq, State.push16_one s v, State.push16_eq s v⟩

theorem foldl_push16_bp (words : List Word) (s : State) : (words.foldl State.push16 s).bp = s.bp := by
  induction words generalizing s with
  | nil => rfl
  | cons v words ih => exact (ih _).trans (State.push16_bp s v)

theorem foldl_push16_ps (words : List Word) (s : State) : (words.foldl State.push16 s).ps = s.ps := by
  induction words generalizing s with
  | nil => rfl
  | cons v words ih => exact (ih _).trans (State.push16_ps s v)

/-- PUSH R pushes its eight words and writes nothing else (R297). -/
theorem exec_pushR_spec (s : State) :
    ∃ t, exec .pushR s = .next t ∧ Pushed [s.aw, s.cw, s.dw, s.bw, s.sp, s.bp, s.ix, s.iy] s t ∧
      t = { s with sp := s.sp - 16, mem := t.mem, stores := t.stores } := by
  have h := (Stacked.nil s).foldl [s.aw, s.cw, s.dw, s.bw, s.sp, s.bp, s.ix, s.iy] (by simp)
  refine ⟨_, rfl, h.pushed, ?_⟩
  exact (h.frame_of_bp (foldl_push16_bp _ s)).trans (by rw [foldl_push16_ps]; rfl)

/-! ### POP (R291, R298, R299, R341, R342) -/

/-- POP R reads the words back in the reverse order (R342). -/
theorem exec_popR_eq (s : State) :
    exec .popR s =
      .next { s with
        iy := s.readWord s.ss s.sp, ix := s.readWord s.ss (s.sp + 2), bp := s.readWord s.ss (s.sp + 4)
        bw := s.readWord s.ss (s.sp + 8), dw := s.readWord s.ss (s.sp + 10), cw := s.readWord s.ss (s.sp + 12)
        aw := s.readWord s.ss (s.sp + 14), sp := s.sp + 16 } := by
  show execPopR s = _
  simp only [execPopR, add_zero]

/-- Settles O38: eight pushes one after the other, and one update from seven words read at their offsets. -/
theorem registerSetPushAndPop : Obligations.RegisterSetPushAndPop :=
  fun s => ⟨exec_pushR_spec s, exec_popR_eq s⟩

/-- POP reg16 writes its register after SP has moved (R299). -/
theorem exec_popReg_eq (s : State) (r : Reg) :
    exec (.popReg r) s = .next (({ s with sp := s.sp + 2 } : State).setReg .word r (s.readWord s.ss s.sp)) := rfl

/-- POP mem16 stores at an address formed without SP (R298). -/
theorem exec_popMem_eq (s : State) (m : MemArg) :
    exec (.popMem m) s =
      .next (({ s with sp := s.sp + 2 } : State).writeMem .word (s.eaSeg m) (s.ea m) (s.readWord s.ss s.sp)) := rfl

/-- POP PSW loads PSW after SP has moved (R341). -/
theorem exec_popPsw_eq (s : State) :
    exec .popPsw s = .next (({ s with sp := s.sp + 2 } : State).loadPsw (s.readWord s.ss s.sp)) := rfl

/-- MD after a load of PSW (R19). -/
theorem loadPsw_md_eq (s : State) (w : Word) :
    (s.loadPsw w).psw.md = if s.cls = .emu ∧ s.mdwe = true then w.getLsbD 15 else s.psw.md := by
  simp only [State.loadPsw_psw, Bool.and_eq_true, beq_iff_eq]

/-- Settles O39: each form is one write of the popped word after SP has moved. -/
theorem popLoadsTheStackTop : Obligations.PopLoadsTheStackTop := by
  intro s r m
  refine ⟨⟨_, exec_popReg_eq s r, ?_⟩, ⟨_, exec_popMem_eq s m, ?_⟩, ⟨_, exec_popPsw_eq s, ?_⟩⟩
  · obtain ⟨hvalue, honly, hframe, hpsw, hdraws⟩ :=
      State.setReg_writes { s with sp := s.sp + 2 } .word r (s.readWord s.ss s.sp)
    refine ⟨hvalue, fun hr => honly .sp hr.symm, fun q hq hsp => ?_, hframe, hpsw, hdraws⟩
    rw [honly q hq, reg16_setSp, if_neg hsp]
  · exact ⟨State.writeMem_stored { s with sp := s.sp + 2 } .word _ _ _,
      State.writeMem_only { s with sp := s.sp + 2 } .word _ _ _, State.writeMem_eq _ .word _ _ _⟩
  · exact ⟨rfl, rfl, rfl, rfl, rfl, rfl, rfl, rfl, rfl, rfl, loadPsw_md_eq _ _⟩

/-! ### CALL (R300 to R305) -/

/-- A call within the segment pushes one word and jumps (R300). -/
theorem callNearTo_spec (target : Word) (s : State) :
    Pushed [s.pc] s (callNearTo target s) ∧
      callNearTo target s = { s with sp := s.sp - 2, pc := target, mem := (callNearTo target s).mem, stores := [] } :=
  ⟨State.pushed_congr (State.push16_one s s.pc) rfl rfl rfl, rfl⟩

/-- A call to another segment pushes PS, then the offset, and jumps (R300, R304). -/
theorem callFarTo_spec (segment offset : Word) (s : State) :
    Pushed [s.ps, s.pc] s (callFarTo segment offset s) ∧
      callFarTo segment offset s =
        { s with
          sp := s.sp - 4, ps := segment, pc := offset, mem := (callFarTo segment offset s).mem, stores := [] } := by
  have hfirst := ((Stacked.nil s).push16 (by simp) s.ps).setBpPs s.bp segment
  have hboth := hfirst.push16 (by simp) s.pc
  refine ⟨State.pushed_congr hboth.pushed rfl rfl rfl, ?_⟩
  have hsp : s.sp - 2 - 2 = s.sp - 4 := by bv_omega
  rw [← hsp]
  rfl

/-- Settles O41: three forms are one call within the segment, two are one call to another. -/
theorem callPushesTheReturnAddress : Obligations.CallPushesTheReturnAddress := by
  intro s i words ps pc h
  cases h with
  | near | regptr | memptr16 => exact ⟨_, rfl, callNearTo_spec _ s⟩
  | far | memptr32 => exact ⟨_, rfl, callFarTo_spec _ _ s⟩

end Sys2Proof.Machine
end

section
/-! PROOFS. PREPARE and DISPOSE (46_stack_control_transfer.md): O40.

The words a PREPARE pushes are named as a list: the old BP, the copied frame pointers, the new frame's own address. A
frame pointer is read from the memory as the copies before it left it, so it is the word that stood there before the
instruction only where it shares no byte with the words pushed. -/

namespace Sys2Proof.Machine

/-! ### The copies of the frame pointers (R343) -/

/-- PREPARE after the old BP and `k` copied frame pointers have been pushed. -/
def afterCopies (s : State) (k : Nat) : State := Nat.repeat copyFramePointer k (s.push16 s.bp)

/-- The frame pointer that the copy after the first `k` reads: the word `k + 1` places below the old BP. -/
def framePointer (s : State) (k : Nat) : Word :=
  (afterCopies s k).readWord s.ss (s.bp - BitVec.ofNat 16 (2 * (k + 1)))

/-- The words pushed by then. -/
def copiedWords (s : State) (k : Nat) : List Word := s.bp :: (List.range k).map (framePointer s)

theorem copiedWords_length (s : State) (k : Nat) : (copiedWords s k).length = k + 1 := by
  simp [copiedWords]

theorem copiedWords_succ (s : State) (k : Nat) : copiedWords s (k + 1) = copiedWords s k ++ [framePointer s k] := by
  simp [copiedWords, List.range_succ]

/-- After `k` copies those words have been pushed, and BP is `k` words lower. -/
theorem afterCopies_stacked (s : State) {k : Nat} (hk : k < 2 ^ 14) :
    Stacked (copiedWords s k) s (afterCopies s k) ∧ (afterCopies s k).bp = s.bp - BitVec.ofNat 16 (2 * k) ∧
      (afterCopies s k).ps = s.ps := by
  induction k with
  | zero => exact ⟨(Stacked.nil s).push16 (by simp) s.bp, by simp [afterCopies, Nat.repeat], rfl⟩
  | succ k ih =>
    obtain ⟨hstacked, hbp, hps⟩ := ih (by omega)
    have hbp' : (afterCopies s k).bp - 2 = s.bp - BitVec.ofNat 16 (2 * (k + 1)) := by rw [hbp, State.stack_offset]
    have hcopy : afterCopies s (k + 1) =
        { (afterCopies s k).push16 (framePointer s k) with
          bp := s.bp - BitVec.ofNat 16 (2 * (k + 1)), ps := (afterCopies s k).ps } := by
      rw [framePointer, ← hbp', ← hstacked.ss]
      rfl
    rw [hcopy, copiedWords_succ]
    exact ⟨(hstacked.push16 (by rw [copiedWords_length]; omega) _).setBpPs _ _, rfl, hps⟩

/-- A stack of fewer words is part of one of more. -/
theorem inStack_mono {s : State} {j n a : Nat} (hjn : j ≤ n) (h : InStack s j a) : InStack s n a := by
  obtain ⟨k, hk, hin⟩ := h
  exact ⟨k, by omega, hin⟩

/-- A frame pointer that shares no byte with the words pushed before it is the word the memory held (R343). -/
theorem framePointer_eq (s : State) {k : Nat} (hk : k < 2 ^ 14)
    (h : ∀ a, InOperand s .word s.ss (s.bp - BitVec.ofNat 16 (2 * (k + 1))) a → ¬ InStack s (k + 1) a) :
    framePointer s k = s.readWord s.ss (s.bp - BitVec.ofNat 16 (2 * (k + 1))) := by
  obtain ⟨hstacked, -, -⟩ := afterCopies_stacked s hk
  have hkept := hstacked.pushed.1
  rw [copiedWords_length] at hkept
  exact State.readWord_eq_of_bytes hstacked.cls hstacked.xam _ _ (hkept _ (h _ (.inl rfl)))
    (hkept _ (h _ (.inr ⟨rfl, rfl⟩)))

/-! ### The words pushed by level -/

/-- All the words a PREPARE of a level pushes: from level 1 on the new frame's own address is the last. -/
def prepareWords (s : State) : Nat → List Word
  | 0 => copiedWords s 0
  | n + 1 => copiedWords s n ++ [s.sp - 2]

theorem prepareWords_length (s : State) (level : Nat) : (prepareWords s level).length = level + 1 := by
  cases level <;> simp [prepareWords, copiedWords_length]

/-- The old BP is the first word pushed. -/
theorem prepareWords_first (s : State) (level : Nat) : (prepareWords s level)[0]? = some s.bp := by
  cases level <;> rfl

/-- The frame pointers stand between. -/
theorem prepareWords_copied (s : State) {level k : Nat} (h : k + 1 < level) :
    (prepareWords s level)[k + 1]? = some (framePointer s k) := by
  obtain ⟨n, rfl⟩ : ∃ n, level = n + 1 := ⟨level - 1, by omega⟩
  have hk : k < n := by omega
  rw [prepareWords, List.getElem?_append_left (by rw [copiedWords_length]; omega)]
  simp [copiedWords, hk]

/-- The new frame's own address is the last word pushed. -/
theorem prepareWords_last (s : State) {level : Nat} (h : level ≠ 0) :
    (prepareWords s level)[level]? = some (s.sp - 2) := by
  obtain ⟨n, rfl⟩ := Nat.exists_eq_succ_of_ne_zero h
  rw [prepareWords, List.getElem?_append_right (by rw [copiedWords_length])]
  simp [copiedWords_length]

/-! ### PREPARE and DISPOSE (R343, R344) -/

/-- PREPARE pushes its words, then sets BP to the new frame and moves SP past the local variables (R343). -/
theorem exec_prepare_eq (s : State) (size : Word) (level : Byte) :
    ∃ u, Stacked (prepareWords s level.toNat) s u ∧ u.ps = s.ps ∧
      exec (.prepare size level) s = .next { u with bp := s.sp - 2, sp := u.sp - size } := by
  have hlevel := level.isLt
  by_cases h0 : level = 0
  · subst h0
    obtain ⟨hstacked, -, hps⟩ := afterCopies_stacked s (k := 0) (by omega)
    exact ⟨_, hstacked, hps, rfl⟩
  · obtain ⟨n, hn⟩ := Nat.exists_eq_succ_of_ne_zero fun e => h0 (BitVec.eq_of_toNat_eq e)
    obtain ⟨hstacked, -, hps⟩ := afterCopies_stacked s (k := n) (by omega)
    rw [hn]
    refine ⟨(afterCopies s n).push16 (s.sp - 2), hstacked.push16 (by rw [copiedWords_length]; omega) _, hps, ?_⟩
    show execPrepare size level s = _
    simp only [execPrepare, if_neg h0, hn, Nat.succ_eq_add_one, Nat.add_sub_cancel]
    rfl

/-- What a PREPARE leaves: its frame, and every word it pushed to be read where it stands (R343). -/
theorem exec_prepare_spec (s : State) (size : Word) (level : Byte) :
    ∃ t, exec (.prepare size level) s = .next t ∧ t.bp = s.sp - 2 ∧
      t.sp = s.sp - 2 - BitVec.ofNat 16 (2 * level.toNat) - size ∧
      t = { s with bp := t.bp, sp := t.sp, mem := t.mem, stores := t.stores } ∧
      (∀ a, ¬ InStack s (level.toNat + 1) a → t.mem.read a = s.mem.read a) ∧
      (s.NormalAddresses → ∀ k v, (prepareWords s level.toNat)[k]? = some v →
        t.readWord s.ss (s.sp - 2 - BitVec.ofNat 16 (2 * k)) = v) := by
  obtain ⟨u, hstacked, hps, he⟩ := exec_prepare_eq s size level
  have hoffset (k : Nat) : s.sp - 2 - BitVec.ofNat 16 (2 * k) = s.sp - BitVec.ofNat 16 (2 * (k + 1)) := by
    rw [← State.stack_offset, sub_right_comm]
  refine ⟨_, he, rfl, ?_, ?_, ?_, fun hnormal k v hk => ?_⟩
  · rw [hstacked.sp, prepareWords_length, hoffset]
  · conv_lhs => rw [hstacked.frame, hps]
  · rw [← prepareWords_length s]
    exact hstacked.pushed.1
  · obtain ⟨hlt, hv⟩ := List.getElem?_eq_some_iff.mp hk
    rw [hoffset, ← hv, ← hstacked.pushed.2 hnormal k hlt]
    exact State.readWord_congr rfl rfl rfl _ _

/-- DISPOSE pops BP from where BP points (R344). -/
theorem exec_dispose_eq (s : State) :
    exec .dispose s = .next { s with sp := s.bp + 2, bp := s.readWord s.ss s.bp } := rfl

/-- Settles O40: each clause on memory reads one of the words pushed. -/
theorem stackFramesAreMadeAndFreed : Obligations.StackFramesAreMadeAndFreed := by
  intro s size level
  obtain ⟨t, he, hbp, hsp, hframe, hkept, hread⟩ := exec_prepare_spec s size level
  have hlevel := level.isLt
  refine ⟨⟨t, he, hbp, hsp, hframe, hkept, fun hn => ?_, fun hn h0 => ?_, fun hn j h1 hj hapart => ?_⟩,
    exec_dispose_eq s⟩
  · have := hread hn 0 _ (prepareWords_first s _)
    rwa [Nat.mul_zero, BitVec.sub_zero] at this
  · exact hread hn _ _ (prepareWords_last s fun e => h0 (BitVec.eq_of_toNat_eq e))
  · obtain ⟨k, rfl⟩ : ∃ k, j = k + 1 := ⟨j - 1, by omega⟩
    rw [hread hn _ _ (prepareWords_copied s hj)]
    exact framePointer_eq s (by omega) fun a ha hin => hapart a ha (inStack_mono (by omega) hin)

end Sys2Proof.Machine
end

section
/-! PROOFS. The interrupt instructions, the CPU control instructions and the boundary between two instructions
(47_interrupt_cpu_control.md, 60_exceptions.md): O44, O45, O46, O47, O50, O53 and O54. -/

namespace Sys2Proof.Machine

/-! ### The vector table (R402) -/

/-- The two bytes of a word, the high-order byte first. -/
theorem joinBytes_eq_append (lo hi : Byte) : joinBytes lo hi = hi ++ lo :=
  (BitVec.setWidth_append_eq_shiftLeft_setWidth_or (b := hi) (b' := lo)).symm

/-- A word outside the segments in the normal address mode: two bytes one after the other (R47, R402). -/
theorem State.readAbs_normal {s : State} (h : s.NormalAddresses) (l : BitVec 20) :
    s.readAbs l = s.mem.read (l.toNat + 1) ++ s.mem.read l.toNat := by
  have hplace : s.place l = l.toNat := by rw [place, h, if_neg Bool.false_ne_true]
  rw [readAbs, hplace, joinBytes_eq_append]

theorem State.vectorAddr_toNat (n : Byte) : (vectorAddr n).toNat = 4 * n.toNat := by
  rw [vectorAddr]
  bv_omega

theorem State.vectorAddr_add_two_toNat (n : Byte) : (vectorAddr n + 2).toNat = 4 * n.toNat + 2 := by
  rw [vectorAddr]
  bv_omega

/-- Settles O45: both words of a vector are read from absolute addresses, which four times a byte does not wrap. -/
theorem vectorTableIsAtAddressZero : Obligations.VectorTableIsAtAddressZero := by
  intro s n h a
  constructor
  · rw [State.vectorOffset, State.readAbs_normal h, State.vectorAddr_toNat]
  · rw [State.vectorSegment, State.readAbs_normal h, State.vectorAddr_add_two_toNat]

/-! ### CPU control (R361 to R369) -/

theorem exec_ei_eq (s : State) : exec .ei s = .next { s with psw := { s.psw with ie := true }, inhibit := true } := rfl

theorem exec_halt_eq (s : State) : exec .halt s = .next { s with halted := true } := rfl

theorem exec_poll_eq (s : State) :
    exec .poll s =
      if s.prefixes.locked then .refused .lockedPoll
      else .next (if s.pollActive then s else { s with inProgress := some .poll }) := rfl

/-- Settles O50: NOP and the FPO forms are the identity, and POLL branches on BUSLOCK, then on its pin. -/
theorem cpuControlCompletes : Obligations.CpuControlCompletes := by
  intro s x y z x' m
  refine ⟨rfl, rfl, rfl, rfl, rfl, exec_ei_eq s, exec_halt_eq s, fun hl hp => ?_, fun hl hp => ?_, fun hl => ?_⟩ <;>
    rw [exec_poll_eq, hl]
  · rw [hp, if_neg Bool.false_ne_true, if_pos rfl]
  · rw [hp, if_neg Bool.false_ne_true, if_neg Bool.false_ne_true]
  · rw [if_pos rfl]

/-! ### BRK, BRKV and CHKIND (R350 to R354) -/

theorem exec_brk3_eq (s : State) : exec .brk3 s = .next (s.breakSeq 3 s.pc) := rfl

theorem exec_brkImm_eq (n : Byte) (s : State) : exec (.brkImm n) s = .next (s.breakSeq n s.pc) := rfl

theorem exec_brkv_eq (s : State) : exec .brkv s = .next (if s.psw.v then s.breakSeq 4 s.pc else s) := rfl

/-- CHKIND breaks outside its limits, the index and both limits signed (R354, D36). -/
theorem exec_chkind_eq (r : Reg) (m : MemArg) (s : State) :
    exec (.chkind r m) s = .next
      (if (s.readEA .word m).toInt ≤ (s.reg16 r).toInt ∧ (s.reg16 r).toInt ≤ (s.readEAHigh m).toInt then s
        else s.breakSeq 5 s.pc) := by
  have hout : (s.reg16 r).toInt < (s.readEA .word m).toInt ∨ (s.readEAHigh m).toInt < (s.reg16 r).toInt ↔
      ¬ ((s.readEA .word m).toInt ≤ (s.reg16 r).toInt ∧ (s.reg16 r).toInt ≤ (s.readEAHigh m).toInt) := by
    rw [not_and_or, not_le, not_le]
  show execChkind r m s = _
  simp only [execChkind, hout, ite_not]

/-- Settles O44: each break is the one entry sequence with `nextPC` saved, taken where its condition holds. -/
theorem softwareInterruptsEnterTheirVector : Obligations.SoftwareInterruptsEnterTheirVector := by
  intro s n r m inLimits
  refine ⟨⟨_, exec_brk3_eq s, State.breakSeq_enters s 3 s.pc⟩, ⟨_, exec_brkImm_eq n s, State.breakSeq_enters s n s.pc⟩,
    fun hv => ⟨_, ?_, State.breakSeq_enters s 4 s.pc⟩, fun hv => ?_,
    fun hout => ⟨_, ?_, State.breakSeq_enters s 5 s.pc⟩, fun hin => ?_⟩
  · rw [exec_brkv_eq, if_pos hv]
  · rw [exec_brkv_eq, hv, if_neg Bool.false_ne_true]
  · rw [exec_chkind_eq, if_neg hout]
  · rw [exec_chkind_eq, if_pos hin]

/-! ### RETI (R355, R415) -/

theorem exec_reti_eq (s : State) :
    exec .reti s = .next { s with
      pc := s.readWord s.ss s.sp, ps := s.readWord s.ss (s.sp + 2), sp := s.sp + 6
      psw := (s.loadPsw (s.readWord s.ss (s.sp + 4))).psw, stores := [] } := by
  show Host.Outcome.next (s.returnSeq State.loadPsw) = _
  rw [State.returnSeq_eq]
  rfl

/-- Settles O46: the three pops are three words at SS:SP, the last of them loaded as POP PSW loads it. -/
theorem returnFromInterruptPopsThreeWords : Obligations.ReturnFromInterruptPopsThreeWords := by
  intro s w
  exact ⟨_, exec_reti_eq s, rfl, rfl, rfl, rfl, rfl, rfl, rfl, rfl, rfl, rfl, loadPsw_md_eq s w⟩

/-- A PSW that is read as a word and loaded again is as it was: all but MD are loaded from their own places (R16). -/
theorem Psw.load_toWord (c : Cls) (f g : Psw) (h : g.md = f.md) : g.load (f.toWord c) = f := by
  obtain ⟨-, -, -, -, hv, hdir, hie, hbrk, hs, hz, -, hac, -, hp, -, hcy⟩ := pswWordHasItsLayout c f
  simp only [Psw.load, hv, hdir, hie, hbrk, hs, hz, hac, hp, hcy, h]

/-- Loading the PSW of a machine of the same class and mode restores it, whether or not MD is write-enabled (R19). -/
theorem State.loadPsw_pswWord {s t : State} (hc : t.cls = s.cls) (hmd : t.psw.md = s.psw.md) :
    (t.loadPsw s.pswWord).psw = s.psw := by
  have hbit : t.cls = .emu ∧ t.mdwe = true → s.pswWord.getLsbD 15 = s.psw.md := by
    rintro ⟨he, -⟩
    obtain ⟨h15, -⟩ := pswWordHasItsLayout s.cls s.psw
    rw [pswWord, h15, ← hc, he]
    rfl
  have hload : (t.loadPsw s.pswWord).psw.md = s.psw.md := by
    rw [loadPsw_md_eq]
    split
    · next h => exact hbit h
    · exact hmd
  have hrest : (t.loadPsw s.pswWord).psw =
      { t.psw.load s.pswWord with md := (t.loadPsw s.pswWord).psw.md } := rfl
  rw [hrest, hload, pswWord, Psw.load_toWord s.cls s.psw t.psw hmd]

/-- Once a vector is entered, the saved PC, PS and PSW stand at SS:SP and up, in the normal address mode (R403). -/
theorem Enters.words {n : Byte} {saved : Word} {s t : State} (h : Enters n saved s t) (hn : s.NormalAddresses) :
    t.readWord t.ss t.sp = saved ∧ t.readWord t.ss (t.sp + 2) = s.ps ∧ t.readWord t.ss (t.sp + 4) = s.pswWord := by
  obtain ⟨hframe, -, hread⟩ := h
  have hss : t.ss = s.ss := by rw [hframe]
  have hsp : t.sp = s.sp - 6 := by rw [hframe]
  have h2 : s.sp - 6 + 2 = s.sp - 4 := by bv_omega
  have h4 : s.sp - 6 + 4 = s.sp - 2 := by bv_omega
  rw [hss, hsp, h2, h4]
  exact ⟨hread hn 2 (by simp), hread hn 1 (by simp), hread hn 0 (by simp)⟩

/-- Settles O47: RETI reads the three words back that the entry pushed, and they undo all else that it wrote. -/
theorem returnUndoesBreak : Obligations.ReturnUndoesBreak := by
  intro s n hn
  refine ⟨_, exec_brkImm_eq n s, ?_⟩
  obtain ⟨hpc, hps, hpsw⟩ := Enters.words (State.breakSeq_enters s n s.pc) hn
  obtain ⟨m, ht⟩ := State.breakSeq_exists s n s.pc
  have hload : ((s.breakSeq n s.pc).loadPsw s.pswWord).psw = s.psw := State.loadPsw_pswWord (by simp) (by simp)
  have hsp : s.sp - 6 + 6 = s.sp := BitVec.sub_add_cancel _ _
  rw [exec_reti_eq, hpc, hps, hpsw, hload, ht]
  simp only [hsp]

/-! ### Requests while the CPU is halted (R362, R411) -/

/-- With no request pending there is nothing to accept. -/
theorem State.acceptRequests_of_none {s : State} (hn : s.nmi = false) (hi : s.int = none) (saved : Word) :
    s.acceptRequests saved = s := by
  simp only [acceptRequests, hn, hi, Bool.false_eq_true, if_false]

/-- A maskable request that IE disables stays pending and ends the HALT state (R362, D38). -/
theorem State.acceptRequests_of_disabled {s : State} {n : Byte} (hn : s.nmi = false) (hi : s.int = some n)
    (he : s.psw.ie = false) (saved : Word) : s.acceptRequests saved = { s with halted := false } := by
  simp only [acceptRequests, hn, hi, he, Bool.false_eq_true, if_false]

/-- A step of a halted CPU is one look at the requests (R362). -/
theorem step_of_halted {s : State} (h : s.halted = true) : step s = .next (s.acceptRequests s.pc) := if_pos h

/-- Settles O54: a halted step accepts requests and does nothing else. -/
theorem haltEndsOnRequests : Obligations.HaltEndsOnRequests := by
  intro s hh
  refine ⟨fun hn hi => ?_, fun hn => ⟨_, step_of_halted hh, State.acceptRequests_nmi_enters hn s.pc⟩,
    fun hn n hi => ⟨fun he => ⟨_, step_of_halted hh, State.acceptRequests_int_enters hn hi he s.pc⟩, fun he => ?_⟩⟩
  · rw [step_of_halted hh, State.acceptRequests_of_none hn hi]
  · rw [step_of_halted hh, State.acceptRequests_of_disabled hn hi he]

/-! ### The boundary after an instruction (R410 to R412) -/

/-- The machine at a boundary in native mode before the requests are looked at: the prefixes are used up, and a
single-step break that is due is entered (R410). -/
def State.afterBreak (s : State) (armed : Bool) : State :=
  if armed then ({ s with prefixes := Prefixes.none } : State).breakSeq 1 s.pc else { s with prefixes := Prefixes.none }

theorem State.afterBreak_enters (s : State) (armed : Bool) :
    if armed then Enters 1 s.pc { s with prefixes := Prefixes.none } (s.afterBreak armed)
    else s.afterBreak armed = { s with prefixes := Prefixes.none } := by
  cases armed with
  | true => exact breakSeq_enters { s with prefixes := Prefixes.none } 1 s.pc
  | false => rfl

/-- The break leaves the requests and `nmi_vector` as they were. -/
theorem State.afterBreak_requests (s : State) (armed : Bool) :
    (s.afterBreak armed).nmi = s.nmi ∧ (s.afterBreak armed).int = s.int ∧
      (s.afterBreak armed).nmiVector = s.nmiVector := by
  cases armed <;> simp [afterBreak]

theorem State.boundary_of_window {s : State} (h : s.inhibit = true) (armed : Bool) :
    s.boundary armed = { s with prefixes := Prefixes.none } := by
  simp only [boundary, h, if_true]

theorem State.boundary_of_emulating {s : State} (hw : s.inhibit = false) (he : s.emulating = true) (armed : Bool) :
    s.boundary armed = { s with prefixes := Prefixes.none, breakDue := armed } := by
  obtain ⟨h, -⟩ | ⟨-, -, h⟩ | ⟨-, h, -⟩ := boundary_cases s armed
  · exact absurd (h.symm.trans hw) (by decide)
  · exact h
  · exact absurd (h.symm.trans he) (by decide)

theorem State.boundary_of_native {s : State} (hw : s.inhibit = false) (he : s.emulating = false) (armed : Bool) :
    s.boundary armed = (s.afterBreak armed).acceptRequests (s.afterBreak armed).pc := by
  obtain ⟨h, -⟩ | ⟨-, h, -⟩ | ⟨-, -, u, hu, h⟩ := boundary_cases s armed
  · exact absurd (h.symm.trans hw) (by decide)
  · exact absurd (h.symm.trans he) (by decide)
  · rw [h, hu]
    rfl

/-- With the window closed, a noted break and each request that is accepted are due (R389, R411). -/
theorem State.interruptDue_of {s : State} (hw : s.inhibit = false)
    (h : s.breakDue = true ∨ s.nmi = true ∨ s.int ≠ none ∧ s.psw.ie = true) : s.interruptDue = true := by
  simpa [interruptDue, requestDue, hw, Option.isSome_iff_ne_none] using h

/-- In the emulation mode the step is refused for a break or a request that is due (R389). -/
theorem step_of_interruptDue {s : State} (hh : s.halted = false) (hp : s.inProgress = none) (he : s.emulating = true)
    (hd : s.interruptDue = true) : step s = .refused .emulationInterrupt := by
  apply step_of_select_error hh
  simp only [State.select, hp, he, hd, Bool.and_true, if_true]

/-- Settles O53: in native mode the requests are looked at after the break, on a machine that holds them as before. -/
theorem boundaryServesInOrder : Obligations.BoundaryServesInOrder := by
  intro s i armed hi hp u
  rw [finish_boundary hi hp]
  refine ⟨fun hw => State.boundary_of_window hw armed, fun he hw hh hdue => ?_, fun he hw => ?_⟩
  · rw [State.boundary_of_emulating hw he]
    have hd : ({ s with prefixes := Prefixes.none, breakDue := armed } : State).interruptDue = true :=
      State.interruptDue_of hw hdue
    exact step_of_interruptDue (s := { s with prefixes := Prefixes.none, breakDue := armed }) hh hp he hd
  · obtain ⟨hnmi, hint, hvector⟩ := s.afterBreak_requests armed
    rw [State.boundary_of_native hw he, ← hnmi, ← hint, ← hvector]
    exact ⟨_, s.afterBreak_enters armed, fun h => State.acceptRequests_nmi_enters h _,
      fun h n hreq hie => State.acceptRequests_int_enters h hreq hie _,
      fun h n hreq hie => State.acceptRequests_of_disabled h hreq hie _,
      fun h hreq => State.acceptRequests_of_none h hreq _⟩

end Sys2Proof.Machine
end
